-- ==== Sys2Proof/Word.lean ====
section
/-! DEFINITION. The words of the hub: bytes, hub clock values, voice sequences, samples, and the
index types of its tables. -/

namespace Sys2Proof

/-- One byte of a frame or of the configuration memory (11.1). -/
abbrev Byte := BitVec 8

/-- A hub clock value: milliseconds modulo 2^32 (R174). -/
abbrev Clock := BitVec 32

/-- The sequence counter of a voice frame, compared modulo 256 (R4). -/
abbrev Seq := BitVec 8

/-- One converted sample, signed 16-bit (R8). -/
abbrev Sample := BitVec 16

/-- A block: 64 samples, 4 ms of audio (03, R46). -/
abbrev Block := Vector Sample 64

/-- A block of silence. -/
def zeroBlock : Block := Vector.replicate 64 0

/-- A link port, L0 to L11. -/
abbrev PortNo := Fin 12
/-- A slot of the source table (R1). -/
abbrev SourceSlot := Fin 64
/-- A tour number (R20). -/
abbrev TourNo := Fin 24
/-- A program number: tour × 4 + language slot (R25). -/
abbrev ProgNo := Fin 96
/-- A language slot of a tour; 0 is the base language (R25). -/
abbrev LangSlot := Fin 4
/-- A zone number (R59). -/
abbrev ZoneNo := Fin 8
/-- An announcement record number (R60). -/
abbrev AnnNo := Fin 4
/-- A carrier of a gallery unit (R90). -/
abbrev CarrierNo := Fin 8
/-- A receiver record number (R114). -/
abbrev RecNo := Fin 320
/-- A slot of a charging rack (R134). -/
abbrev RackSlot := Fin 40
/-- A gain step (R49). -/
abbrev GainStep := Fin 16

/-- All the numbers below `n`, ascending. -/
def fins (n : Nat) : List (Fin n) :=
  (List.range n).filterMap fun i => if h : i < n then some ⟨i, h⟩ else none

/-- The number `x` as an index below `n`, when it is one. -/
def toFin (n x : Nat) : Option (Fin n) := if h : x < n then some ⟨x, h⟩ else none

/-- The tour a program belongs to (R25). -/
def tourOf (p : ProgNo) : TourNo := ⟨p.val / 4, by omega⟩

/-- The language slot of a program (R25). -/
def langOf (p : ProgNo) : LangSlot := ⟨p.val % 4, by omega⟩

/-- The program of a tour and a language slot (R25). -/
def progOf (t : TourNo) (l : LangSlot) : ProgNo := ⟨t.val * 4 + l.val, by omega⟩

/-- The four programs of a tour, ascending. -/
def progsOf (t : TourNo) : List ProgNo := (fins 4).map (progOf t)

end Sys2Proof
end

