-- ==== Sys2Proof/Config.lean ====
section
/-! DEFINITION. What the spec fixes for the hub as constants and defaults, and the free values: what
the spec leaves open although the hub goes on. -/

namespace Sys2Proof.Config

/-- The bytes of the configuration memory, "up to 8 KiB" (10.7). -/
def memoryBytes : Nat := 8192

/-- What a byte of the configuration memory that nothing has written reads as.
DESIGN CHOICE (unsafe, log entry 5): the spec gives the memory no contents before the first save. -/
def unwrittenByte : Byte := 0xFF

/-- The most entries of a frame store (R11). -/
def storeDepth : Nat := 4
/-- The most hearing records (R72). -/
def hearingRecords : Nat := 96
/-- The most members of a gallery set (R80). -/
def gallerySetSize : Nat := 3
/-- The most outfit orders (R119). -/
def outfitOrders : Nat := 8
/-- The most requests of the request queue (R149). -/
def requestDepth : Nat := 8
/-- The most notices of the notice queue (R163). -/
def noticeDepth : Nat := 16
/-- The most frames of a transmit queue (R171). -/
def transmitDepth : Nat := 16
/-- The most audio frames of a transmit queue (R171). -/
def transmitAudio : Nat := 12
/-- The most entries of an abandoned list (R134, R143). -/
def abandonedDepth : Nat := 40

/-- The length of one block in milliseconds (R40). -/
def blockMs : Nat := 4
/-- The map refresh interval in milliseconds (R93). -/
def mapRefreshMs : Nat := 1000
/-- The key deadline in milliseconds (R136). -/
def keyDeadlineMs : Nat := 2000
/-- The inventory deadline in milliseconds (R136). -/
def inventoryDeadlineMs : Nat := 5000

/-- Table 3-6: the default values of the gain steps (R49). -/
def defaultGains : Vector Nat 16 :=
  #v[0, 1034, 1638, 2063, 2597, 3269, 4115, 5181, 6523, 8211, 10338, 13014, 16384, 20626, 25967,
    32690]

/-- FREE VALUE (log entry 7): the 32 bits a save writes over the marker at its first stage. R176 says
only that it is "a value that is not the marker"; the argument tells one save from another. -/
opaque overwrittenMarker : Nat → BitVec 32

/-- FREE VALUE (log entry 24): the role code a slot takes whose image byte names none of the three
roles. R180 loads such a slot with its id absent and says nothing of its role. -/
opaque unreadRole : Nat → Fin 3

/-- FREE VALUE (log entry 37): a byte that the memory holds after a save which failed at stage 3 before that byte
was read back. R176 says that the contents of such an image "may differ from the snapshot"; the arguments are
the save and the byte's offset. -/
opaque unverifiedByte : Nat → Nat → Byte

end Sys2Proof.Config
end

