-- ==== Sys2Proof/Syntax.lean ====
section
/-! DEFINITION. The commands of the hub: one constructor of `Instr` for each row of
`spec/opcode_table.json`, with its operands. A row that is the arrival of a frame carries the frame's
bytes as they came over the line (R167, R177); a row that is the serving of a request carries nothing,
because what it serves is the head of the request queue (R150; log entry 12). -/

namespace Sys2Proof

/-- The three stages in which a save writes the image (R176). -/
inductive SaveStage where
  | marker    -- stage 1: the marker is overwritten
  | sections  -- stage 2: the sections, then the length and the checksum
  | finish    -- stage 3: the marker, and the read-back
  deriving DecidableEq, Repr

/-- The commands: the rows of the opcode table, in its order. -/
inductive Instr where
  /-- POWER_ON (R175). -/
  | powerOn
  /-- CONFIG_LOAD_COMPLETE (R175). -/
  | configLoadComplete
  /-- LINK_UP (R169). -/
  | linkUp (port : PortNo)
  /-- LINK_DOWN (R168). -/
  | linkDown (port : PortNo)
  /-- VOICE_FRAME (R3). -/
  | voiceFrame (port : PortNo) (frame : List Byte)
  /-- LOST_DEADLINE_EXPIRY (R9). -/
  | lostDeadlineExpiry (slot : SourceSlot)
  /-- BLOCK_DEADLINE_EXPIRY (R42, R44). -/
  | blockDeadlineExpiry (program : ProgNo)
  /-- SILENCE_DEADLINE_EXPIRY (R76). -/
  | silenceDeadlineExpiry (slot : SourceSlot) (port : PortNo)
  /-- LEAVE_DEADLINE_EXPIRY (R79). -/
  | leaveDeadlineExpiry (slot : SourceSlot) (port : PortNo)
  /-- SETTLE_DEADLINE_EXPIRY (R102). -/
  | settleDeadlineExpiry (port : PortNo) (carrier : CarrierNo)
  /-- PARK_DEADLINE_EXPIRY (R106). -/
  | parkDeadlineExpiry (port : PortNo) (carrier : CarrierNo)
  /-- MAP_REFRESH_DEADLINE_EXPIRY (R109). -/
  | mapRefreshDeadlineExpiry (port : PortNo)
  /-- END_DEADLINE_EXPIRY (R68). -/
  | endDeadlineExpiry (record : AnnNo)
  /-- PENDING_DEADLINE_EXPIRY (R67). -/
  | pendingDeadlineExpiry (record : AnnNo)
  /-- LOAN_DEADLINE_EXPIRY (R126). -/
  | loanDeadlineExpiry (receiver : RecNo)
  /-- KEY_DEADLINE_EXPIRY (R142). -/
  | keyDeadlineExpiry (port : PortNo)
  /-- INVENTORY_DEADLINE_EXPIRY (R146). -/
  | inventoryDeadlineExpiry (port : PortNo)
  /-- DOCK (R127). -/
  | dock (port : PortNo) (frame : List Byte)
  /-- UNDOCK (R125). -/
  | undock (port : PortNo) (frame : List Byte)
  /-- BATTERY (R139). -/
  | battery (port : PortNo) (frame : List Byte)
  /-- CHARGE_DONE (R139). -/
  | chargeDone (port : PortNo) (frame : List Byte)
  /-- KEY_DONE (R143). -/
  | keyDone (port : PortNo) (frame : List Byte)
  /-- KEY_FAIL (R143). -/
  | keyFail (port : PortNo) (frame : List Byte)
  /-- SLOT_FAULT (R144). -/
  | slotFault (port : PortNo) (frame : List Byte)
  /-- INVENTORY_END (R147). -/
  | inventoryEnd (port : PortNo) (frame : List Byte)
  /-- CONTROL_REQUEST (R149). -/
  | controlRequest (port : PortNo) (frame : List Byte)
  /-- READ_ENTRY (R152). -/
  | readEntry
  /-- WRITE_ENTRY (R153). -/
  | writeEntry
  /-- COND_WRITE (R154). -/
  | condWrite
  /-- OPEN_TOUR (R21). -/
  | openTour
  /-- CLOSE_TOUR (R22). -/
  | closeTour
  /-- OUTFIT (R120). -/
  | outfit
  /-- CANCEL_OUTFIT (R124). -/
  | cancelOutfit
  /-- ANNOUNCE_START (R63, R64). -/
  | announceStart
  /-- ANNOUNCE_STOP (R62). -/
  | announceStop
  /-- ANNOUNCE_QUERY (R62). -/
  | announceQuery
  /-- CLEAR_FLAGS (R158). -/
  | clearFlags
  /-- READ_STATUS (R159). -/
  | readStatus
  /-- RELEASE_LOG (R160). -/
  | releaseLog
  /-- SAVE_CONFIG (R161). -/
  | saveConfig
  /-- RESTART (R162). -/
  | restart
  /-- CONFIG_SAVE_COMPLETE (R176): the write ends and the image reads back as `readBack`. -/
  | configSaveComplete (readBack : List Byte)
  /-- ACK_TIMEOUT (R175, R176): no acknowledgement at this point of a save, or in a load. -/
  | ackTimeout (stage : SaveStage) (offset : Fin 436)
  /-- FRAME_SENT (R172). -/
  | frameSent (port : PortNo)
  /-- NOTICE_SEND (R164). -/
  | noticeSend
  /-- UNKNOWN_REQUEST_KIND (R151). -/
  | unknownRequestKind
  /-- POWER_LOSS (R176): a save in progress, if any, had reached this point. -/
  | powerLoss (stage : SaveStage) (offset : Fin 436)
  deriving DecidableEq, Repr

end Sys2Proof
end

