-- ==== Sys2Proof/WellFormed.lean ====
section
/-! DEFINITION. Which commands are well formed: a row that is the arrival of a frame carries a frame of
that row's kind, and a completed save carries as many bytes as an image has. An ill-formed command is
no event of the hub, and `exec` leaves the state as it is (log entry 3). -/

namespace Sys2Proof

/-- The frame's kind byte is `code` (Table 11-1). -/
def frameIsKind (code : Byte) (frame : List Byte) : Bool := frame.head? == some code

/-- The frame is a rack report whose report kind is `code`, or is none of the eight kinds, so that the
fleet unit discards it whatever it was meant for (R178, Table 11-5). -/
def frameIsReport (code : Byte) (frame : List Byte) : Bool :=
  frameIsKind 0x04 frame &&
    match frame[3]? with
    | some k => k == code || k == 0 || 8 < k.toNat
    | none => true

/-- Well-formedness of a command. -/
def Instr.wellFormed : Instr → Bool
  | .voiceFrame _ f => frameIsKind 0x01 f
  | .dock _ f => frameIsReport 1 f
  | .undock _ f => frameIsReport 2 f
  | .battery _ f => frameIsReport 3 f
  | .chargeDone _ f => frameIsReport 4 f
  | .keyDone _ f => frameIsReport 5 f
  | .keyFail _ f => frameIsReport 6 f
  | .slotFault _ f => frameIsReport 7 f
  | .inventoryEnd _ f => frameIsReport 8 f
  | .controlRequest _ f => frameIsKind 0x06 f
  | .configSaveComplete readBack => readBack.length == 436
  | .powerOn | .configLoadComplete | .linkUp _ | .linkDown _ | .lostDeadlineExpiry _
  | .blockDeadlineExpiry _ | .silenceDeadlineExpiry _ _ | .leaveDeadlineExpiry _ _
  | .settleDeadlineExpiry _ _ | .parkDeadlineExpiry _ _ | .mapRefreshDeadlineExpiry _
  | .endDeadlineExpiry _ | .pendingDeadlineExpiry _ | .loanDeadlineExpiry _ | .keyDeadlineExpiry _
  | .inventoryDeadlineExpiry _ | .readEntry | .writeEntry | .condWrite | .openTour | .closeTour
  | .outfit | .cancelOutfit | .announceStart | .announceStop | .announceQuery | .clearFlags
  | .readStatus | .releaseLog | .saveConfig | .restart | .ackTimeout _ _ | .frameSent _ | .noticeSend
  | .unknownRequestKind | .powerLoss _ _ => true

end Sys2Proof
end

