-- ==== Sys2Proof/Machine/State.lean ====
section
/-! DEFINITION. The state of the hub: every table, queue, register and deadline the spec gives it, as
plain data, and its value right after power is applied. Optional fields are the spec's "absent". -/

namespace Sys2Proof.Machine

/-! ### Fixed sets of names -/

/-- Power and the load of the image (R175, R176). -/
inductive Phase where
  | off      -- no power (after POWER_LOSS)
  | loading  -- powered, the image being read; no link event and no frame is taken (R175)
  | running  -- the load is complete
  deriving DecidableEq, Repr

/-- Role of a source (Table 1-1). -/
inductive SourceRole where
  | guide | interpreter | announcer
  deriving DecidableEq, Repr

/-- State of a source (Table 1-4). -/
inductive SourceState where
  | unused | idle | live | lost
  deriving DecidableEq, Repr

/-- State of a tour (Table 2-1). -/
inductive TourState where
  | closed | opened
  deriving DecidableEq, Repr

/-- Voice mode of a program (Table 2-2). -/
inductive VoiceMode where
  | unset | guide | interpreter | linked
  deriving DecidableEq, Repr

/-- Program state (Table 2-3). -/
inductive ProgState where
  | unset | dormant | active
  deriving DecidableEq, Repr

/-- Pace of a program (R31). -/
inductive Pace where
  | following | fill
  deriving DecidableEq, Repr

/-- Voice condition of a program (R30). -/
inductive VoiceCond where
  | voice | fallback
  deriving DecidableEq, Repr

/-- Conceal state of a reader (R48). -/
inductive Conceal where
  | fresh | halved | silent
  deriving DecidableEq, Repr

/-- State of an announcement record (Table 4-1). -/
inductive AnnState where
  | waiting  -- PENDING
  | on
  deriving DecidableEq, Repr

/-- Comparator state of a hearing record (R78). -/
inductive Comparator where
  | out | inside | leaving  -- OUT, IN, LEAVING
  deriving DecidableEq, Repr

/-- State of a carrier (Table 6-2). -/
inductive CarrierState where
  | free | settling | live | parked
  deriving DecidableEq, Repr

/-- State of a receiver (Table 7-2). -/
inductive RecState where
  | dockedCharging | dockedReady | keying | keyed | issued | overdue | stray | faulty
  deriving DecidableEq, Repr

/-- Role of a port (R166). -/
inductive PortRole where
  | unused | gallery | rack | desk
  deriving DecidableEq, Repr

/-- Link state of a port (R166). -/
inductive LinkState where
  | down | up
  deriving DecidableEq, Repr

/-- Status of a control response (Table 9-1). -/
inductive Status where
  | ok | busy | malformed | noSuch | readOnly | range | refusedState | condFalse | tableFull
  deriving DecidableEq, Repr

/-- Notice kinds (Table 9-6). -/
inductive NoticeKind where
  | sourceLost | sourceBack | clip | guideMoved | carrierReady | programUnserved | programServed
  | announceDropped | outfitDone | keyFailed | receiverOverdue | fleetFull | rackOffline | linkDown
  | deliveryError | configSaved | configSaveFailed | hubStarted
  deriving DecidableEq, Repr

/-- Configuration status (R175). -/
inductive ConfigStatus where
  | loaded | defaulted
  deriving DecidableEq, Repr

/-! ### Source unit -/

/-- One entry of a frame store (R11). -/
structure Entry where
  seq     : Seq
  samples : Block
  stamp   : Clock
  deriving DecidableEq, Repr

/-- A source record with its frame store (Table 1-1, R11). -/
structure Source where
  id           : Option (BitVec 16)
  role         : SourceRole
  gainStep     : GainStep
  mute         : Bool
  state        : SourceState
  newest       : Option Seq
  lostDeadline : Option Clock
  generation   : BitVec 16
  store        : List Entry  -- oldest first
  deriving DecidableEq, Repr

/-- A hearing record (Table 5-1). -/
structure HearingRecord where
  slot            : SourceSlot
  port            : PortNo
  est8            : Nat
  comparator      : Comparator
  inStamp         : Option Clock
  silenceDeadline : Option Clock
  leaveDeadline   : Option Clock
  frozen          : Bool
  deriving DecidableEq, Repr

/-! ### Tour unit and mix engine -/

/-- A tour record (Table 2-1). -/
structure Tour where
  state       : TourState
  guide       : Option SourceSlot
  priority    : Fin 4
  gallerySet  : List PortNo  -- oldest join first
  guideFrozen : Bool
  generation  : BitVec 16
  deriving DecidableEq, Repr

/-- What the mix engine keeps for one of a program's readers: cursor, conceal state and previous
samples (Table 3-1). -/
structure Reader where
  cursor  : Option Seq
  conceal : Conceal
  prev    : Option Block
  deriving DecidableEq, Repr

/-- A program record (Table 2-2) with the previous samples of its readers (R37). `wanted` is the
attribute of R26 as the tour unit last derived it (log entry 23). -/
structure Program where
  language      : Fin 16
  mode          : VoiceMode
  interpreter   : Option SourceSlot
  target        : Option ProgNo
  voiceStep     : GainStep
  floorStep     : GainStep
  fallbackStep  : GainStep
  carryAlways   : Bool
  state         : ProgState
  pace          : Pace
  cond          : VoiceCond
  keyed         : Nat
  issued        : Nat
  blockCount    : BitVec 16
  blockDeadline : Option Clock
  lead          : Reader
  floor         : Reader
  overlay       : Reader
  clip          : Bool
  clipCount     : Nat  -- saturating at 65535
  overlayAnn    : Option AnnNo
  generation    : BitVec 16
  wanted        : Bool
  deriving DecidableEq, Repr

/-- A zone entry (R59): bit n for Ln. -/
structure Zone where
  members    : BitVec 12
  generation : BitVec 16
  deriving DecidableEq, Repr

/-- An announcement in a record (Table 4-1). -/
structure Announcement where
  slot            : SourceSlot
  zones           : BitVec 8
  priority        : Fin 4
  levelStep       : GainStep
  duckStep        : GainStep
  duration        : Nat  -- seconds
  state           : AnnState
  startStamp      : Option Clock
  endDeadline     : Option Clock
  pendingDeadline : Option Clock
  deriving DecidableEq, Repr

/-! ### Carrier unit -/

/-- A carrier entry (Table 6-1); its number is its place. -/
structure Carrier where
  state          : CarrierState
  program        : Option ProgNo
  settleDeadline : Option Clock
  parkDeadline   : Option Clock
  deriving DecidableEq, Repr

/-- An entry of a wait list (R92). -/
structure Waiter where
  program : ProgNo
  stamp   : Clock
  deriving DecidableEq, Repr

/-- What the carrier unit keeps for one port (R90). -/
structure Gallery where
  carriers   : Vector Carrier 8
  waitList   : List Waiter  -- highest rank first
  mapRefresh : Option Clock
  deriving DecidableEq, Repr

/-! ### Fleet unit -/

/-- The receiver in a receiver record (Table 7-1). -/
structure ReceiverData where
  id           : BitVec 24
  state        : RecState
  place        : Option (PortNo × RackSlot)  -- rack port and slot
  dockStamp    : Option Clock
  battery      : Nat
  charging     : Bool
  keyedProgram : Option ProgNo
  outfit       : Option (BitVec 16)
  issueStamp   : Option Clock
  loanDeadline : Option Clock
  unconfirmed  : Bool
  deriving DecidableEq, Repr

/-- A receiver record: free, or holding a receiver; the generation is kept in both (R114). -/
structure Receiver where
  data       : Option ReceiverData
  generation : BitVec 16
  deriving DecidableEq, Repr

/-- An outfit order (Table 7-4): W, S, K and F. -/
structure OutfitOrder where
  number   : BitVec 16
  tour     : TourNo
  lang     : LangSlot
  want     : Nat
  selected : Nat
  keyed    : Nat
  failed   : Nat  -- saturating at 255
  deriving DecidableEq, Repr

/-- The occupant of a rack slot (R135). -/
inductive Occupant where
  | empty
  | receiver (r : RecNo)
  | unregistered
  deriving DecidableEq, Repr

/-- A slot entry of a rack (R135). -/
structure SlotEntry where
  occupant   : Occupant
  unkeyOwed  : Bool
  deriving DecidableEq, Repr

/-- A key order (R141). -/
inductive KeyOrder where
  | key (slot : RackSlot) (program : ProgNo)
  | unkey (slot : RackSlot)
  deriving DecidableEq, Repr

/-- A rack record (Table 8-1). -/
structure Rack where
  online            : Bool
  inventory         : Bool
  inventoryDeadline : Option Clock
  slots             : Vector SlotEntry 40
  grantLimit        : Nat
  grants            : List RecNo  -- oldest grant first
  chargeQueue       : List RecNo
  keyQueue          : List KeyOrder  -- head first
  inFlight          : Bool
  attempts          : Nat
  keyDeadline       : Option Clock
  abandoned         : List RackSlot  -- oldest first
  generation        : BitVec 16
  deriving DecidableEq, Repr

/-! ### Frames, notices and requests -/

/-- A notice (R163). -/
structure Notice where
  kind     : NoticeKind
  stamp    : Clock
  subject1 : Option (BitVec 16)
  subject2 : Option (BitVec 16)
  detail   : BitVec 16
  deriving DecidableEq, Repr

/-- A rack order (Table 11-6). -/
inductive RackOrder where
  | grant (slot : RackSlot)
  | revoke (slot : RackSlot)
  | key (slot : RackSlot) (program : ProgNo) (tour : TourNo) (language : Fin 16)
  | unkey (slot : RackSlot)
  | inventory
  deriving DecidableEq, Repr

/-- A frame the hub sends (Table 11-1). -/
inductive TxFrame where
  | program (carrier : CarrierNo) (program : ProgNo) (count : BitVec 16) (samples : Block)
  | carrierMap (entries : List (CarrierState × Option ProgNo))
  | order (o : RackOrder)
  | response (tag : BitVec 16) (kind : Byte) (status : Status) (result : List Byte)
  | notice (n : Notice)
  deriving DecidableEq, Repr

/-- A queued control request: its payload as it arrived and its arrival port (R149). -/
structure Request where
  port    : PortNo
  payload : List Byte
  deriving DecidableEq, Repr

/-! ### Control engine and link ports -/

/-- The limits table (Table 9-4). -/
structure Limits where
  sourceLostMs   : Nat
  mixSlackMs     : Nat
  pendingS       : Nat
  join           : Nat
  leave          : Nat
  leaveHoldS     : Nat
  silenceMs      : Nat
  settleMs       : Nat
  parkS          : Nat
  readyThreshold : Nat
  loanMin        : Nat
  critical       : Nat
  keyRetries     : Nat
  noticePort     : PortNo
  noticeMask     : BitVec 18
  generation     : BitVec 16
  deriving DecidableEq, Repr

/-- A gain step entry (R49). -/
structure Gain where
  value      : Nat
  generation : BitVec 16
  deriving DecidableEq, Repr

/-- A port table entry with its transmit queue and the frame on its line (R166, R171, R172). -/
structure Port where
  role       : PortRole
  link       : LinkState
  queue      : List TxFrame  -- oldest first
  line       : Option TxFrame
  generation : BitVec 16
  deriving DecidableEq, Repr

/-- The captured drop of the delivery log (R173). -/
structure Drop where
  port    : PortNo
  kind    : Byte
  subject : Option (BitVec 16)
  stamp   : Clock
  deriving DecidableEq, Repr

/-- The delivery log (R173); it is valid when it holds a captured drop. -/
structure DeliveryLog where
  captured : Option Drop
  count    : Nat  -- saturating at 65535
  deriving DecidableEq, Repr

/-- The hub. -/
structure State where
  /-- Power and load of the image. -/
  phase           : Phase
  /-- The configuration memory: the bytes that differ from `Config.unwrittenByte`, addresses rising. -/
  memory          : List Host.Cell
  configStatus    : ConfigStatus
  /-- The image of the save in progress (SAVING), or none (IDLE): R161. -/
  saving          : Option (List Byte)
  /-- The MODEL's own counter: it indexes the free value `Config.overwrittenMarker` (log entry 7). -/
  freeCount       : Nat
  clock           : Clock
  requests        : List Request  -- oldest first
  notices         : List Notice  -- oldest first
  noticeOverflow  : Bool
  limits          : Limits
  gains           : Vector Gain 16
  log             : DeliveryLog
  ports           : Vector Port 12
  sources         : Vector Source 64
  lastUnknown     : Option (BitVec 16)
  hearing         : List HearingRecord  -- ascending slot and port
  /-- Whether a slot's guide is frozen in the hearing table, records or none (R80). -/
  guideFrozen     : Vector Bool 64
  tours           : Vector Tour 24
  programs        : Vector Program 96
  zones           : Vector Zone 8
  announcements   : Vector (Option Announcement) 4
  galleries       : Vector Gallery 12
  receivers       : Vector Receiver 320
  pool            : List RecNo  -- the ready pool, head first
  outfits         : List OutfitOrder  -- oldest first
  nextOrder       : BitVec 16
  racks           : Vector Rack 12
  /-- The commands that wait, first in, first out. -/
  pending         : List Instr
  deriving DecidableEq, Repr

/-! ### Why a step stops -/

/-- No event of the hub ends in a fault: the spec gives every one of them its effect. -/
inductive Fault
  deriving DecidableEq, Repr

/-- The refusals. -/
inductive Refusal where
  /-- A command without a meaning in this model. Raised by no arm of `exec` (safe: it says nothing). -/
  | notModelled (mnemonic : String)
  deriving DecidableEq, Repr

/-! ### The values after power is applied -/

/-- An UNUSED slot of the source table (R2). -/
def Source.initial : Source :=
  { id := none, role := .guide, gainStep := 12, mute := false, state := .unused, newest := none
    lostDeadline := none, generation := 0, store := [] }

/-- A tour at power-on (R20). -/
def Tour.initial : Tour :=
  { state := .closed, guide := none, priority := 0, gallerySet := [], guideFrozen := false
    generation := 0 }

/-- A reader that has taken nothing (Table 3-1). -/
def Reader.initial : Reader := { cursor := none, conceal := .fresh, prev := none }

/-- A program at power-on (R25): base programs are GUIDE and DORMANT, relay programs UNSET. -/
def Program.initial (p : ProgNo) : Program :=
  { language := 0
    mode := if langOf p = 0 then .guide else .unset
    interpreter := none, target := none, voiceStep := 12, floorStep := 4, fallbackStep := 12
    carryAlways := false
    state := if langOf p = 0 then .dormant else .unset
    pace := .fill, cond := .voice, keyed := 0, issued := 0, blockCount := 0, blockDeadline := none
    lead := Reader.initial, floor := Reader.initial, overlay := Reader.initial
    clip := false, clipCount := 0, overlayAnn := none, generation := 0, wanted := false }

/-- A FREE carrier (R90). -/
def Carrier.free : Carrier :=
  { state := .free, program := none, settleDeadline := none, parkDeadline := none }

/-- A port without carriers in use (R90). -/
def Gallery.initial : Gallery :=
  { carriers := Vector.replicate 8 Carrier.free, waitList := [], mapRefresh := none }

/-- An empty rack slot (R134). -/
def SlotEntry.initial : SlotEntry := { occupant := .empty, unkeyOwed := false }

/-- A rack record at power-on (R134). -/
def Rack.initial : Rack :=
  { online := false, inventory := false, inventoryDeadline := none
    slots := Vector.replicate 40 SlotEntry.initial, grantLimit := 12, grants := [], chargeQueue := []
    keyQueue := [], inFlight := false, attempts := 0, keyDeadline := none, abandoned := []
    generation := 0 }

/-- The defaults of Table 9-4 (R155). -/
def Limits.initial : Limits :=
  { sourceLostMs := 200, mixSlackMs := 2, pendingS := 5, join := 40, leave := 28, leaveHoldS := 3
    silenceMs := 500, settleMs := 40, parkS := 20, readyThreshold := 80, loanMin := 240
    critical := 15, keyRetries := 3, noticePort := 0, noticeMask := BitVec.allOnes 18
    generation := 0 }

/-- A port at power-on without an image (R166): L0 is DESK, the others are UNUSED. -/
def Port.initial (p : PortNo) : Port :=
  { role := if p = 0 then .desk else .unused, link := .down, queue := [], line := none
    generation := 0 }

/-- The cleared delivery log (R173). -/
def DeliveryLog.cleared : DeliveryLog := { captured := none, count := 0 }

/-- The hub right after power is applied (R175): every table and queue empty, the clock at 0, the read
of the image begun. Until the load completes the tables hold their defaults (log entry 4). -/
def State.reset : State :=
  { phase := .loading, memory := [], configStatus := .defaulted, saving := none, freeCount := 0
    clock := 0, requests := [], notices := [], noticeOverflow := false, limits := Limits.initial
    gains := Vector.ofFn fun i => { value := Config.defaultGains[i], generation := 0 }
    log := DeliveryLog.cleared
    ports := Vector.ofFn Port.initial
    sources := Vector.replicate 64 Source.initial
    lastUnknown := none, hearing := []
    guideFrozen := Vector.replicate 64 false
    tours := Vector.replicate 24 Tour.initial
    programs := Vector.ofFn Program.initial
    zones := Vector.replicate 8 { members := 0, generation := 0 }
    announcements := Vector.replicate 4 none
    galleries := Vector.replicate 12 Gallery.initial
    receivers := Vector.replicate 320 { data := none, generation := 0 }
    pool := [], outfits := [], nextOrder := 1
    racks := Vector.replicate 12 Rack.initial
    pending := [] }

end Sys2Proof.Machine
end

