-- ==== Sys2Proof/Machine/Bytes.lean ====
section
/-! DEFINITION. Bytes: big-endian fields (11.1), the frame check and the envelope of R177, the codes of
Table 11-12, and the bytes of every frame the hub sends (Tables 11-3 to 11-13). -/

namespace Sys2Proof.Machine

/-! ### Fields -/

/-- The byte at offset `i`; 0 past the end. -/
def byteAt (bs : List Byte) (i : Nat) : Nat := (bs.getD i 0).toNat

/-- The 2-byte field at offset `i`, most significant byte first. -/
def wordAt (bs : List Byte) (i : Nat) : Nat := byteAt bs i * 256 + byteAt bs (i + 1)

/-- The 3-byte field at offset `i`, most significant byte first. -/
def tripleAt (bs : List Byte) (i : Nat) : Nat := wordAt bs i * 256 + byteAt bs (i + 2)

/-- The 4-byte field at offset `i`, most significant byte first. -/
def longAt (bs : List Byte) (i : Nat) : Nat := wordAt bs i * 65536 + wordAt bs (i + 2)

/-- A 1-byte field. -/
def put8 (n : Nat) : List Byte := [BitVec.ofNat 8 n]

/-- A 2-byte field, most significant byte first. -/
def put16 (n : Nat) : List Byte := [BitVec.ofNat 8 (n / 256), BitVec.ofNat 8 n]

/-- A 3-byte field, most significant byte first. -/
def put24 (n : Nat) : List Byte := BitVec.ofNat 8 (n / 65536) :: put16 n

/-- A 4-byte field, most significant byte first. -/
def put32 (n : Nat) : List Byte := put16 (n / 65536) ++ put16 n

/-- An optional 1-byte field: FFh when absent (11.1). -/
def opt8 (x : Option Nat) : List Byte := put8 (x.getD 0xFF)

/-- An optional 2-byte field: FFFFh when absent (11.1). -/
def opt16 (x : Option Nat) : List Byte := put16 (x.getD 0xFFFF)

/-- The 4-byte code of an absent value (11.1, R179). -/
def absent32 : Nat := 0xFFFFFFFF

/-- An optional 4-byte field: FFFFFFFFh when absent (11.1). -/
def opt32 (x : Option Nat) : List Byte := put32 (x.getD absent32)

/-! ### The envelope (R177) -/

/-- One data bit into the check register: shift left, and exclusive OR with 1021h when the bit shifted
out differs from the data bit (R177). -/
def checkBit (reg : BitVec 16) (bit : Bool) : BitVec 16 :=
  if reg.msb != bit then (reg <<< 1) ^^^ 0x1021 else reg <<< 1

/-- One byte into the check register, most significant bit first (R177). -/
def checkByte (reg : BitVec 16) (b : Byte) : BitVec 16 :=
  [7, 6, 5, 4, 3, 2, 1, 0].foldl (fun r i => checkBit r (b.getLsbD i)) reg

/-- The frame check over the kind, length and payload bytes; the register starts at FFFFh (R177). -/
def frameCheck (bs : List Byte) : BitVec 16 := bs.foldl checkByte 0xFFFF

/-- The envelope of a frame: kind, length, payload, frame check (R177). -/
def envelope (kind : Byte) (payload : List Byte) : List Byte :=
  let body := kind :: put16 payload.length ++ payload
  body ++ put16 (frameCheck body).toNat

/-- A received frame whose check, length and byte count agree, as its kind and payload; none when it is
discarded for its envelope (R177, R167 step 1). -/
def openEnvelope (frame : List Byte) : Option (Byte × List Byte) :=
  let len := wordAt frame 1
  let body := frame.take (3 + len)
  if frame.length = len + 5 ∧ len ≤ 1024 ∧ wordAt frame (3 + len) = (frameCheck body).toNat then
    some (frame.getD 0 0, body.drop 3)
  else none

/-! ### Codes (Table 11-12, Table 11-1, Table 9-6, Table 11-7) -/

def PortRole.code : PortRole → Nat
  | .unused => 0 | .gallery => 1 | .rack => 2 | .desk => 3

def LinkState.code : LinkState → Nat
  | .down => 0 | .up => 1

def SourceRole.code : SourceRole → Nat
  | .guide => 1 | .interpreter => 2 | .announcer => 3

def SourceState.code : SourceState → Nat
  | .unused => 0 | .idle => 1 | .live => 2 | .lost => 3

def TourState.code : TourState → Nat
  | .closed => 0 | .opened => 1

def VoiceMode.code : VoiceMode → Nat
  | .unset => 0 | .guide => 1 | .interpreter => 2 | .linked => 3

def ProgState.code : ProgState → Nat
  | .unset => 0 | .dormant => 1 | .active => 2

def Pace.code : Pace → Nat
  | .following => 1 | .fill => 2

def VoiceCond.code : VoiceCond → Nat
  | .voice => 1 | .fallback => 2

def Conceal.code : Conceal → Nat
  | .fresh => 0 | .halved => 1 | .silent => 2

def AnnState.code : AnnState → Nat
  | .waiting => 1 | .on => 2

def CarrierState.code : CarrierState → Nat
  | .free => 0 | .settling => 1 | .live => 2 | .parked => 3

def RecState.code : RecState → Nat
  | .dockedCharging => 1 | .dockedReady => 2 | .keying => 3 | .keyed => 4 | .issued => 5
  | .overdue => 6 | .stray => 7 | .faulty => 8

def ConfigStatus.code : ConfigStatus → Nat
  | .loaded => 1 | .defaulted => 2

def Status.code : Status → Nat
  | .ok => 0 | .busy => 1 | .malformed => 2 | .noSuch => 3 | .readOnly => 4 | .range => 5
  | .refusedState => 6 | .condFalse => 7 | .tableFull => 8

def NoticeKind.code : NoticeKind → Nat
  | .sourceLost => 1 | .sourceBack => 2 | .clip => 3 | .guideMoved => 4 | .carrierReady => 5
  | .programUnserved => 6 | .programServed => 7 | .announceDropped => 8 | .outfitDone => 9
  | .keyFailed => 10 | .receiverOverdue => 11 | .fleetFull => 12 | .rackOffline => 13
  | .linkDown => 14 | .deliveryError => 15 | .configSaved => 16 | .configSaveFailed => 17
  | .hubStarted => 18

/-- The role a port role code names. -/
def portRoleOf : Nat → Option PortRole
  | 0 => some .unused | 1 => some .gallery | 2 => some .rack | 3 => some .desk | _ => none

/-- The role a source role code names. -/
def sourceRoleOf : Nat → Option SourceRole
  | 1 => some .guide | 2 => some .interpreter | 3 => some .announcer | _ => none

/-- The mode a voice mode code names. -/
def voiceModeOf : Nat → Option VoiceMode
  | 0 => some .unset | 1 => some .guide | 2 => some .interpreter | 3 => some .linked | _ => none

/-- The code of a yes/no field. -/
def yesNo (b : Bool) : Nat := if b then 1 else 0

/-! ### Frames the hub sends -/

/-- Program frames are audio frames, every other frame the hub sends is not (R171). -/
def TxFrame.isAudio : TxFrame → Bool
  | .program .. => true
  | .carrierMap _ | .order _ | .response .. | .notice _ => false

/-- The frame kind code (Table 11-1). -/
def TxFrame.kindCode : TxFrame → Byte
  | .program .. => 0x02
  | .carrierMap _ => 0x03
  | .order _ => 0x05
  | .response .. => 0x07
  | .notice _ => 0x08

/-- The subject of a drop (R173). A notice is never dropped at a transmit queue (R164). -/
def TxFrame.subject : TxFrame → Option (BitVec 16)
  | .program _ p _ _ => some (BitVec.ofNat 16 p.val)
  | .carrierMap _ => none
  | .order (.grant s) => some (BitVec.ofNat 16 s.val)
  | .order (.revoke s) => some (BitVec.ofNat 16 s.val)
  | .order (.key s _ _ _) => some (BitVec.ofNat 16 s.val)
  | .order (.unkey s) => some (BitVec.ofNat 16 s.val)
  | .order .inventory => none
  | .response tag _ _ _ => some tag
  | .notice _ => none

/-- The payload of a rack order (Table 11-6). -/
def RackOrder.payload : RackOrder → List Byte
  | .grant s => put8 1 ++ put8 s.val ++ [0, 0, 0]
  | .revoke s => put8 2 ++ put8 s.val ++ [0, 0, 0]
  | .key s p t l => put8 3 ++ put8 s.val ++ put8 p.val ++ put8 t.val ++ put8 l.val
  | .unkey s => put8 4 ++ put8 s.val ++ [0, 0, 0]
  | .inventory => put8 5 ++ [0, 0, 0, 0]

/-- The payload of a notice frame (Table 11-13). -/
def Notice.payload (n : Notice) : List Byte :=
  put8 n.kind.code ++ [0] ++ put32 n.stamp.toNat ++ opt16 (n.subject1.map (·.toNat)) ++
    opt16 (n.subject2.map (·.toNat)) ++ put16 n.detail.toNat

/-- The payload of a carrier map frame (Table 11-4): the entries in carrier order. -/
def mapPayload (entries : List (CarrierState × Option ProgNo)) : List Byte :=
  (entries.zipIdx.map fun e =>
    put8 e.2 ++ put8 e.1.1.code ++ opt8 (e.1.2.map (·.val))).flatten

/-- The payload of a frame the hub sends (Tables 11-3, 11-4, 11-6, 11-7, 11-13). -/
def TxFrame.payload : TxFrame → List Byte
  | .program c p n b =>
    put8 c.val ++ put8 p.val ++ put16 n.toNat ++ (b.toList.map fun x => put16 x.toNat).flatten
  | .carrierMap entries => mapPayload entries
  | .order o => o.payload
  | .response tag kind status result =>
    put16 tag.toNat ++ [kind] ++ put8 status.code ++ result
  | .notice n => n.payload

/-- The bytes of a frame on the line (R177). -/
def TxFrame.bytes (f : TxFrame) : List Byte := envelope f.kindCode f.payload

end Sys2Proof.Machine
end

