-- ==== Sys2Proof/Machine/Ops.lean ====
section
/-! DEFINITION. The operations every block shares: hub clock comparison and deadlines (R174), updates of
one record of a table, the notice queue (R163), the transmit queues and their lines (R171, R172) and the
delivery log (R173). -/

namespace Sys2Proof.Machine

/-! ### The hub clock (R174) -/

/-- `a` is earlier than `b`: (b − a) mod 2^32 lies in 1..2^31 − 1, or is 2^31 with `a` the smaller
number (R174). -/
def earlier (a b : Clock) : Bool :=
  let d := (b - a).toNat
  (1 ≤ d && d < 2147483648) || (d == 2147483648 && a.toNat < b.toNat)

/-- The clock `ms` milliseconds from now. -/
def State.after (s : State) (ms : Nat) : Clock := s.clock + BitVec.ofNat 32 ms

/-- A deadline is due when it is present and the clock has reached it (R174). -/
def State.due (s : State) (deadline : Option Clock) : Bool :=
  match deadline with
  | none => false
  | some d => d == s.clock || earlier d s.clock

/-! ### One record of a table -/

def State.modPort (s : State) (p : PortNo) (f : Port → Port) : State :=
  { s with ports := s.ports.set p (f s.ports[p]) }

def State.modSource (s : State) (i : SourceSlot) (f : Source → Source) : State :=
  { s with sources := s.sources.set i (f s.sources[i]) }

def State.modTour (s : State) (t : TourNo) (f : Tour → Tour) : State :=
  { s with tours := s.tours.set t (f s.tours[t]) }

def State.modProgram (s : State) (p : ProgNo) (f : Program → Program) : State :=
  { s with programs := s.programs.set p (f s.programs[p]) }

def State.modGallery (s : State) (g : PortNo) (f : Gallery → Gallery) : State :=
  { s with galleries := s.galleries.set g (f s.galleries[g]) }

def State.modCarrier (s : State) (g : PortNo) (c : CarrierNo) (f : Carrier → Carrier) : State :=
  s.modGallery g fun e => { e with carriers := e.carriers.set c (f e.carriers[c]) }

def State.modReceiver (s : State) (r : RecNo) (f : Receiver → Receiver) : State :=
  { s with receivers := s.receivers.set r (f s.receivers[r]) }

def State.modRack (s : State) (p : PortNo) (f : Rack → Rack) : State :=
  { s with racks := s.racks.set p (f s.racks[p]) }

def State.modSlot (s : State) (p : PortNo) (k : RackSlot) (f : SlotEntry → SlotEntry) : State :=
  s.modRack p fun e => { e with slots := e.slots.set k (f e.slots[k]) }

def State.setAnnouncement (s : State) (a : AnnNo) (x : Option Announcement) : State :=
  { s with announcements := s.announcements.set a x }

/-- Apply `f` to every record of a table, by its number. -/
def mapTable {α : Type} {n : Nat} (f : Fin n → α → α) (v : Vector α n) : Vector α n :=
  Vector.ofFn fun i => f i v[i]

/-- Run an operation for each member of a list, in order. -/
def forEach {α : Type} (xs : List α) (f : α → State → State) (s : State) : State :=
  xs.foldl (fun t x => f x t) s

/-- Put `x` before the first member it precedes. -/
def insertBefore {α : Type} (precedes : α → α → Bool) (x : α) : List α → List α
  | [] => [x]
  | y :: ys => if precedes x y then x :: y :: ys else y :: insertBefore precedes x ys

/-- The first member that `p` holds of, and the list without it. -/
def takeFirst {α : Type} (p : α → Bool) : List α → Option (α × List α)
  | [] => none
  | x :: xs =>
    if p x then some (x, xs) else
      match takeFirst p xs with
      | some (y, ys) => some (y, x :: ys)
      | none => none

/-- The member no other precedes, the first of them where several are left. -/
def bestOf {α : Type} (precedes : α → α → Bool) : List α → Option α
  | [] => none
  | x :: xs => some (xs.foldl (fun b y => if precedes y b then y else b) x)

/-- A subject that is a number of a table. -/
def subjectOf (n : Nat) : Option (BitVec 16) := some (BitVec.ofNat 16 n)

/-! ### Notices (R163) -/

/-- The enable of a notice kind: bit code − 1 of the mask (R165). -/
def Limits.enabled (l : Limits) (k : NoticeKind) : Bool := l.noticeMask.getLsbD (k.code - 1)

/-- Queue a notice: not when its kind is disabled, discarded with the overflow flag when 16 are queued,
otherwise appended with the clock as stamp (R163). -/
def queueNotice (k : NoticeKind) (s1 s2 : Option (BitVec 16)) (detail : BitVec 16) (s : State) :
    State :=
  if !s.limits.enabled k then s
  else if Config.noticeDepth ≤ s.notices.length then { s with noticeOverflow := true }
  else { s with notices := s.notices ++ [⟨k, s.clock, s1, s2, detail⟩] }

/-! ### The delivery log (R173) -/

/-- Record a frame dropped at a transmit queue: captured with a DELIVERY_ERROR notice when the log is
not valid, counted otherwise (R173). -/
def recordDrop (p : PortNo) (f : TxFrame) (s : State) : State :=
  match s.log.captured with
  | some _ => { s with log := { s.log with count := min 65535 (s.log.count + 1) } }
  | none =>
    queueNotice .deliveryError (subjectOf p.val) f.subject (f.kindCode.setWidth 16)
      { s with log := ⟨some ⟨p, f.kindCode, f.subject, s.clock⟩, 1⟩ }

/-! ### Transmit queues (R171, R172) -/

/-- The audio frames of a transmit queue. -/
def audioCount (q : List TxFrame) : Nat := (q.filter TxFrame.isAudio).length

/-- Room for a frame: fewer than 16 frames, and fewer than 12 audio frames for an audio frame (R171). -/
def roomFor (q : List TxFrame) (f : TxFrame) : Bool :=
  q.length < Config.transmitDepth && (!f.isAudio || audioCount q < Config.transmitAudio)

/-- The arbiter's choice: the oldest non-audio frame, else the oldest audio frame (R172). -/
def nextToSend (q : List TxFrame) : Option (TxFrame × List TxFrame) :=
  match takeFirst (fun f => !f.isAudio) q with
  | some x => some x
  | none => takeFirst TxFrame.isAudio q

/-- When the line is free, the link UP and the queue not empty, the transmitter takes a frame (R172). -/
def startLine (p : PortNo) (s : State) : State :=
  match s.ports[p].line, s.ports[p].link, nextToSend s.ports[p].queue with
  | none, .up, some (f, rest) => s.modPort p fun e => { e with queue := rest, line := some f }
  | _, _, _ => s

/-- Hand a frame to a port's transmit queue (R171): dropped when the link is DOWN or there is no room,
otherwise appended; a free line takes it at once (R172; log entry 13). -/
def handFrame (p : PortNo) (f : TxFrame) (s : State) : State :=
  if s.ports[p].link = .up ∧ roomFor s.ports[p].queue f = true then
    startLine p (s.modPort p fun e => { e with queue := e.queue ++ [f] })
  else recordDrop p f s

/-- The ports whose role and link put a block to use. -/
def State.inUse (s : State) (p : PortNo) (role : PortRole) : Bool :=
  s.ports[p].role == role && s.ports[p].link == .up

/-! ### Power (R175, R176) -/

/-- An event of the running hub; before the load completes, and without power, it is no event
(R175; log entry 3). -/
def State.running (s : State) (f : State → State) : Host.Outcome State Fault Refusal :=
  .next (if s.phase = .running then f s else s)

end Sys2Proof.Machine
end

