-- ==== Sys2Proof/Machine/Carriers.lean ====
section
/-! DEFINITION. The carrier unit (chapter 6): carry rank, wait lists, demand arrival and end, settling,
parking, carrier map frames and port changes; and the meanings of its three deadline expiries. -/

namespace Sys2Proof.Machine

/-! ### Carry rank (R95) -/

/-- The priority class of the program's tour. -/
def priorityOf (s : State) (p : ProgNo) : Nat := s.tours[tourOf p].priority.val

/-- The receivers keyed to or issued with a program (Table 6-4, key 3). -/
def receiverSum (s : State) (p : ProgNo) : Nat := s.programs[p].keyed + s.programs[p].issued

/-- Program `p` ranks above program `q` (R95, Table 6-4): the first key on which they differ decides. -/
def ranksAbove (s : State) (p q : ProgNo) : Bool :=
  if priorityOf s p ≠ priorityOf s q then priorityOf s q < priorityOf s p
  else if (langOf p = 0) ≠ (langOf q = 0) then langOf p = 0
  else if receiverSum s p ≠ receiverSum s q then receiverSum s q < receiverSum s p
  else p.val < q.val

/-! ### What a port's carriers hold -/

/-- State and program of every carrier of a port, in carrier order: what a map frame shows (R108). -/
def mapView (e : Gallery) : List (CarrierState × Option ProgNo) :=
  (fins 8).map fun c => (e.carriers[c].state, e.carriers[c].program)

/-- The carrier of a port with this state and program, the lowest-numbered one. -/
def carrierWith (e : Gallery) (st : CarrierState) (p : ProgNo) : Option CarrierNo :=
  (fins 8).find? fun c => e.carriers[c].state == st && e.carriers[c].program == some p

/-- The carrier that serves a program on a port: SETTLING or LIVE (R97). -/
def servingCarrier (e : Gallery) (p : ProgNo) : Option CarrierNo :=
  match carrierWith e .settling p with
  | some c => some c
  | none => carrierWith e .live p

/-- The program is on the port's wait list. -/
def isWaiting (e : Gallery) (p : ProgNo) : Bool := e.waitList.any fun w => w.program == p

/-- The lowest-numbered FREE carrier (R98 step 2). -/
def freeCarrier (e : Gallery) : Option CarrierNo :=
  (fins 8).find? fun c => e.carriers[c].state == .free

/-- A park deadline comes before another; one that is present before one that is not. -/
def parkBefore (e : Gallery) (c d : CarrierNo) : Bool :=
  match e.carriers[c].parkDeadline, e.carriers[d].parkDeadline with
  | some x, some y => earlier x y
  | some _, none => true
  | none, _ => false

/-- The PARKED carrier with the earliest park deadline, the lower number between equals (R98 step 3). -/
def earliestParked (e : Gallery) : Option CarrierNo :=
  bestOf (parkBefore e) ((fins 8).filter fun c => e.carriers[c].state == .parked)

/-- The carrier whose occupant ranks lowest (R99). -/
def lowestOccupant (s : State) (e : Gallery) : Option (CarrierNo × ProgNo) :=
  bestOf (fun x y => ranksAbove s y.2 x.2)
    ((fins 8).filterMap fun c => e.carriers[c].program.map fun q => (c, q))

/-! ### Map frames (R108, R110) -/

/-- Send a port its carrier map frame and set its map refresh deadline, whether or not the queue takes
the frame (R108, R110). -/
def sendMap (g : PortNo) (s : State) : State :=
  let s := handFrame g (.carrierMap (mapView s.galleries[g])) s
  s.modGallery g fun e => { e with mapRefresh := some (s.after Config.mapRefreshMs) }

/-- One event of the carrier unit on a port: at its end a map frame is sent when it changed the state
or the program of a carrier (R108; log entry 35). -/
def carrierEvent (g : PortNo) (f : State → State) (s : State) : State :=
  let t := f s
  if mapView t.galleries[g] = mapView s.galleries[g] then t else sendMap g t

/-! ### Settling, waiting, parking -/

/-- CARRIER_READY (R107). -/
def carrierReady (g : PortNo) (c : CarrierNo) (p : ProgNo) (s : State) : State :=
  queueNotice .carrierReady (subjectOf p.val) (subjectOf g.val) (BitVec.ofNat 16 c.val) s

/-- A carrier becomes LIVE with its program, with CARRIER_READY (R98 step 1, R101, R102). -/
def goLive (g : PortNo) (c : CarrierNo) (p : ProgNo) (s : State) : State :=
  carrierReady g c p (s.modCarrier g c fun _ =>
    { state := .live, program := some p, settleDeadline := none, parkDeadline := none })

/-- A carrier starts to settle with a program; with settle time 0 it is LIVE at once (R101). -/
def startSettle (g : PortNo) (c : CarrierNo) (p : ProgNo) (s : State) : State :=
  if s.limits.settleMs = 0 then goLive g c p s
  else s.modCarrier g c fun _ =>
    { state := .settling, program := some p
      settleDeadline := some (s.after s.limits.settleMs), parkDeadline := none }

/-- Put a program on a port's wait list at the place its rank gives, with a PROGRAM_UNSERVED notice
that carries that place (R92, R100, R107). -/
def putWaiting (g : PortNo) (p : ProgNo) (s : State) : State :=
  let list := insertBefore (fun x y => ranksAbove s x.program y.program) ⟨p, s.clock⟩
    s.galleries[g].waitList
  let place := list.findIdx (fun w => w.program == p) + 1
  queueNotice .programUnserved (subjectOf p.val) (subjectOf g.val) (BitVec.ofNat 16 place)
    (s.modGallery g fun e => { e with waitList := list })

/-- Pre-emption of the lowest-ranked occupant, or waiting (R99, R100). -/
def preemptOrWait (g : PortNo) (p : ProgNo) (s : State) : State :=
  match lowestOccupant s s.galleries[g] with
  | none => putWaiting g p s
  | some (c, q) =>
    if ranksAbove s p q then putWaiting g q (startSettle g c p s) else putWaiting g p s

/-- The allocation steps of R98: reuse, a free carrier, takeover of a parked one, pre-emption or
waiting. -/
def allocate (g : PortNo) (p : ProgNo) (s : State) : State :=
  match carrierWith s.galleries[g] .parked p with
  | some c => goLive g c p s
  | none =>
    match freeCarrier s.galleries[g] with
    | some c => startSettle g c p s
    | none =>
      match earliestParked s.galleries[g] with
      | some c => startSettle g c p s
      | none => preemptOrWait g p s

/-- Demand arrival (p, g): nothing when `p` is served or waits there, else an allocation (R97, R98). -/
def demandArrival (p : ProgNo) (g : PortNo) (s : State) : State :=
  if (servingCarrier s.galleries[g] p).isSome || isWaiting s.galleries[g] p then s
  else carrierEvent g (allocate g p) s

/-- A released carrier goes to the head of the wait list (R104). -/
def handOver (g : PortNo) (c : CarrierNo) (w : Waiter) (rest : List Waiter) (s : State) : State :=
  let waited := min 65535 (s.clock - w.stamp).toNat
  let s := s.modGallery g fun e => { e with waitList := rest }
  let s := queueNotice .programServed (subjectOf w.program.val) (subjectOf g.val)
    (BitVec.ofNat 16 waited) s
  startSettle g c w.program s

/-- A released carrier is parked with its program; with park time 0 it is FREE (R105). -/
def parkCarrier (g : PortNo) (c : CarrierNo) (p : ProgNo) (s : State) : State :=
  if s.limits.parkS = 0 then s.modCarrier g c fun _ => Carrier.free
  else s.modCarrier g c fun _ =>
    { state := .parked, program := some p, settleDeadline := none
      parkDeadline := some (s.after (s.limits.parkS * 1000)) }

/-- Release of the carrier that serves a program (R104, R105). -/
def releaseCarrier (g : PortNo) (c : CarrierNo) (p : ProgNo) (s : State) : State :=
  match s.galleries[g].waitList with
  | w :: rest => handOver g c w rest s
  | [] => parkCarrier g c p s

/-- Demand end (p, g): `p` leaves the wait list, or its SETTLING or LIVE carrier is released (R103). -/
def demandEnd (p : ProgNo) (g : PortNo) (s : State) : State :=
  if isWaiting s.galleries[g] p then
    s.modGallery g fun e => { e with waitList := e.waitList.filter fun w => !(w.program == p) }
  else
    match servingCarrier s.galleries[g] p with
    | none => s
    | some c => carrierEvent g (releaseCarrier g c p) s

/-- A wait list with the entries of these programs moved to the places their new ranks give: they are taken out
together, so that none is placed by another's former rank, and each keeps its wait stamp (R96). -/
def movedBy (s : State) (ps : List ProgNo) (list : List Waiter) : List Waiter :=
  let moves := fun (w : Waiter) => ps.contains w.program
  (list.filter moves).foldl (fun l w => insertBefore (fun x y => ranksAbove s x.program y.program) w l)
    (list.filter fun w => !moves w)

/-- The new carry ranks of programs move their entries on the wait lists, and nothing else (R96). -/
def rerank (ps : List ProgNo) (s : State) : State :=
  forEach (fins 12) (fun g t => t.modGallery g fun e => { e with waitList := movedBy t ps e.waitList }) s

/-! ### Port changes (R111, R112) -/

/-- A GALLERY port is lost: every carrier FREE, no wait list, no map refresh deadline, no notice and no
map frame (R111). -/
def carriersLost (g : PortNo) (s : State) : State := s.modGallery g fun _ => Gallery.initial

/-- A GALLERY port comes into use: one map frame and the map refresh deadline (R112). -/
def carriersGained (g : PortNo) (s : State) : State := sendMap g s

/-! ### Expiries -/

/-- The settle deadline of a SETTLING carrier expires: it becomes LIVE (R102). -/
def settleExpiry (g : PortNo) (c : CarrierNo) (s : State) : State :=
  let e := s.galleries[g].carriers[c]
  match e.state, e.program with
  | .settling, some p =>
    if s.due e.settleDeadline then carrierEvent g (goLive g c p) s else s
  | _, _ => s

/-- The park deadline of a PARKED carrier expires: it becomes FREE (R106). -/
def parkExpiry (g : PortNo) (c : CarrierNo) (s : State) : State :=
  let e := s.galleries[g].carriers[c]
  if e.state = .parked ∧ s.due e.parkDeadline = true then
    carrierEvent g (fun s => s.modCarrier g c fun _ => Carrier.free) s
  else s

/-- The map refresh deadline of a port expires (R109). -/
def mapRefreshExpiry (g : PortNo) (s : State) : State :=
  if s.due s.galleries[g].mapRefresh then sendMap g s else s

/-- SETTLE_DEADLINE_EXPIRY (R102). -/
def execSettleDeadlineExpiry (g : PortNo) (c : CarrierNo) (s : State) :
    Host.Outcome State Fault Refusal := s.running (settleExpiry g c)

/-- PARK_DEADLINE_EXPIRY (R106). -/
def execParkDeadlineExpiry (g : PortNo) (c : CarrierNo) (s : State) :
    Host.Outcome State Fault Refusal := s.running (parkExpiry g c)

/-- MAP_REFRESH_DEADLINE_EXPIRY (R109). -/
def execMapRefreshDeadlineExpiry (g : PortNo) (s : State) : Host.Outcome State Fault Refusal :=
  s.running (mapRefreshExpiry g)

end Sys2Proof.Machine
end

