-- ==== Sys2Proof/Machine/Flags.lean ====
section
/-! DEFINITION. The gain arithmetic of a block, exact on whole numbers (R50 to R53), concealment's
halving (R48), and the CLIP flag with its count (R54). -/

namespace Sys2Proof.Machine

/-- The rounded shift: floor((x + 8192) / 16384) (R50). -/
def roundedShift (x : Int) : Int := (x + 8192) / 16384

/-- An effective multiplier saturated to 0..65535 (R51). -/
def saturateMultiplier (x : Int) : Int := max 0 (min 65535 x)

/-- The effective multiplier of a contribution, from the values of its gain steps in order (R51). -/
def effectiveMultiplier : List Int → Int
  | [] => 16384
  | g :: gs => gs.foldl (fun m g' => saturateMultiplier (roundedShift (m * g'))) g

/-- One sample of a contribution (R52). -/
def contribute (m : Int) (x : Sample) : Int := roundedShift (x.toInt * m)

/-- An output sample is in range when its accumulator is (R53). -/
def inRange (acc : Int) : Bool := -32768 ≤ acc && acc ≤ 32767

/-- An accumulator saturated to −32768..32767 (R53). -/
def saturate (acc : Int) : Int := max (-32768) (min 32767 acc)

/-- One contribution to a block: samples and effective multiplier. -/
structure Contribution where
  samples    : Block
  multiplier : Int

/-- The accumulator of output sample `i`: the exact sum of the contributions' samples (R52). -/
def accumulator (cs : List Contribution) (i : Fin 64) : Int :=
  (cs.map fun c => contribute c.multiplier c.samples[i]).sum

/-- The output block: each accumulator saturated to 16 bits (R53). -/
def outputBlock (cs : List Contribution) : Block :=
  Vector.ofFn fun i => BitVec.ofInt 16 (saturate (accumulator cs i))

/-- Whether the block holds a saturated sample (R53). -/
def blockClips (cs : List Contribution) : Bool :=
  (fins 64).any fun i => !inRange (accumulator cs i)

/-- Each sample halved: an arithmetic shift right by one place (R48). -/
def halveBlock (b : Block) : Block := Vector.ofFn fun i => b[i].sshiftRight 1

/-- The conceal state after a concealment (Table 3-5). -/
def Conceal.step : Conceal → Conceal
  | .fresh => .halved
  | .halved => .silent
  | .silent => .silent

/-- The samples a concealed reader supplies (Table 3-5). -/
def concealSamples (r : Reader) : Block :=
  match r.conceal, r.prev with
  | .fresh, some b => halveBlock b
  | _, _ => zeroBlock

/-- The CLIP flag and count of a program after a block with a saturated sample (R54); `count` is the
block count the block carries. The notice is queued on the flag's change from no to yes. -/
def recordClip (p : ProgNo) (count : BitVec 16) (s : State) : State :=
  let was := s.programs[p].clip
  let s := s.modProgram p fun r => { r with clip := true, clipCount := min 65535 (r.clipCount + 1) }
  if was then s else queueNotice .clip (subjectOf p.val) (subjectOf (tourOf p).val) count s

/-- The CLIP fields cleared: CLEAR_FLAGS, read-and-clear, RESTART (R35, R158, R25). -/
def clearClip (p : ProgNo) (s : State) : State :=
  s.modProgram p fun r => { r with clip := false, clipCount := 0 }

end Sys2Proof.Machine
end

