-- ==== Sys2Proof/Machine/Readers.lean ====
section
/-! DEFINITION. The frame stores and their readers: cursor binding (R38), the reader list (R12), takes
(R13), removal (R14), emptying (R15), appending (R11) and concealment (R48). -/

namespace Sys2Proof.Machine

/-! ### Which cursor reads which source (R38, R12) -/

/-- The three readers of a program. -/
inductive ReaderKind where
  | lead | floor | overlay
  deriving DecidableEq, Repr

/-- One of a program's readers. -/
def Program.reader (r : Program) : ReaderKind → Reader
  | .lead => r.lead
  | .floor => r.floor
  | .overlay => r.overlay

/-- A program with one of its readers replaced. -/
def Program.setReader (r : Program) (k : ReaderKind) (x : Reader) : Program :=
  match k with
  | .lead => { r with lead := x }
  | .floor => { r with floor := x }
  | .overlay => { r with overlay := x }

/-- The guide slot of a program's tour. -/
def guideOf (s : State) (p : ProgNo) : Option SourceSlot := s.tours[tourOf p].guide

/-- The source the lead cursor is bound to (Table 3-2). -/
def leadSource (s : State) (p : ProgNo) : Option SourceSlot :=
  match s.programs[p].mode, s.programs[p].cond with
  | .guide, _ => guideOf s p
  | .interpreter, .voice => s.programs[p].interpreter
  | .interpreter, .fallback => guideOf s p
  | .linked, _ => none
  | .unset, _ => none

/-- The source the floor cursor is bound to (Table 3-2). -/
def floorSource (s : State) (p : ProgNo) : Option SourceSlot :=
  match s.programs[p].mode, s.programs[p].cond with
  | .interpreter, .voice => guideOf s p
  | .linked, _ => guideOf s p
  | _, _ => none

/-- The announcer of the announcement that overlays the program. -/
def overlaySource (s : State) (p : ProgNo) : Option SourceSlot :=
  match s.programs[p].overlayAnn with
  | none => none
  | some a => s.announcements[a].map (·.slot)

/-- The ACTIVE program reads the source (R12). DESIGN CHOICE (log entry 40): R1 says that an UNUSED slot has no
readers; one that is still the interpreter source of a program whose tour was opened after the slot's id was cleared
has that program as its reader here, as R12 says. No effect shows it, for the slot's store is empty. -/
def isReader (s : State) (i : SourceSlot) (p : ProgNo) : Bool :=
  s.programs[p].state == .active &&
    ((match s.programs[p].mode with
      | .guide => guideOf s p == some i
      | .interpreter => s.programs[p].interpreter == some i || guideOf s p == some i
      | .linked => guideOf s p == some i
      | .unset => false) ||
    overlaySource s p == some i)

/-- The reader list of a source, derived from the program records (R12). -/
def readersOf (s : State) (i : SourceSlot) : List ProgNo := (fins 96).filter (isReader s i)

/-- The one cursor of a reader for a source: the sequence it last took (R12, R38). Where more than one field is
bound to the source, it is the field that takes: an overlaying announcer's, then the guide's as floor (log
entry 17). -/
def cursorOn (s : State) (i : SourceSlot) (p : ProgNo) : Option Seq :=
  if overlaySource s p = some i then s.programs[p].overlay.cursor
  else if floorSource s p = some i then s.programs[p].floor.cursor
  else if leadSource s p = some i then s.programs[p].lead.cursor
  else none

/-! ### Removal, emptying, appending (R14, R15, R11) -/

/-- The distance from `b` on to `a`, modulo 256. -/
def seqDistance (a b : Seq) : Nat := (a - b).toNat

/-- An entry of sequence `n` is passed by a reader with this cursor (R14). -/
def passedBy (n : Seq) (cursor : Option Seq) : Bool :=
  match cursor with
  | none => false
  | some c => seqDistance c n ≤ 127

/-- The removal rule: while the source has a reader, the oldest entry leaves when every reader has
passed it, and so on (R14). -/
def applyRemoval (i : SourceSlot) (s : State) : State :=
  let cursors := (readersOf s i).map (cursorOn s i)
  if cursors.isEmpty then s
  else s.modSource i fun r => { r with store := r.store.dropWhile fun e => cursors.all (passedBy e.seq) }

/-- The removal rule for a source that may be absent. -/
def applyRemovalTo (i : Option SourceSlot) (s : State) : State :=
  match i with
  | none => s
  | some i => applyRemoval i s

/-- A program's cursors on a source made absent (R15). -/
def dropCursors (i : SourceSlot) (p : ProgNo) (s : State) : State :=
  let clear (bound : Option SourceSlot) (r : Reader) : Reader :=
    if bound = some i then { r with cursor := none } else r
  s.modProgram p fun r =>
    { r with lead := clear (leadSource s p) r.lead, floor := clear (floorSource s p) r.floor
             overlay := clear (overlaySource s p) r.overlay }

/-- Emptying a frame store: every entry, the newest sequence and every reader's cursor (R15). -/
def emptyStore (i : SourceSlot) (s : State) : State :=
  let readers := readersOf s i
  forEach readers (dropCursors i) (s.modSource i fun r => { r with store := [], newest := none })

/-- The list after an accepted frame of sequence `e.seq` is placed: trimming, displacement, appending
(R11). -/
def placeEntry (e : Entry) (store : List Entry) : List Entry :=
  let kept := store.dropWhile fun x => 127 < seqDistance e.seq x.seq
  let kept := if Config.storeDepth ≤ kept.length then kept.drop 1 else kept
  kept ++ [e]

/-! ### Takes (R13) and concealment (R48) -/

/-- Take by sequence (R13). -/
def takeBySequence (store : List Entry) (n : Seq) : Option Entry := store.find? fun e => e.seq == n

/-- Take of the oldest entry after the cursor (R13). -/
def takeOldestAfter (store : List Entry) (cursor : Option Seq) : Option Entry :=
  match cursor with
  | none => store.head?
  | some c => store.find? fun e => 1 ≤ seqDistance e.seq c && seqDistance e.seq c ≤ 127

/-- Take of the newest entry (R13). -/
def takeNewest (store : List Entry) : Option Entry := store.getLast?

/-- A reader with nothing to take: it supplies its concealment and its conceal state advances (R48). -/
def concealReader (p : ProgNo) (k : ReaderKind) (s : State) : State × Block :=
  let r := s.programs[p].reader k
  (s.modProgram p fun x => x.setReader k { r with conceal := r.conceal.step }, concealSamples r)

/-- A take's answer given to a reader: an entry sets the cursor, makes the conceal state FRESH and
delivers its samples, zeros from a muted source, and the store applies its removal rule; "missing"
conceals (R13, R16, R47, R48). -/
def answerTake (p : ProgNo) (k : ReaderKind) (i : SourceSlot) (answer : Option Entry) (s : State) :
    State × Block :=
  match answer with
  | none => concealReader p k s
  | some e =>
    let samples := if s.sources[i].mute then zeroBlock else e.samples
    let s := s.modProgram p fun x => x.setReader k ⟨some e.seq, .fresh, some samples⟩
    (applyRemoval i s, samples)

/-! ### Sample conversion (R8) -/

/-- One U8 sample: (b − 128) × 256 (Table 1-3). -/
def convertU8 (b : Byte) : Sample := (b - 128).setWidth 16 <<< 8

/-- The formats a voice frame may name (Table 11-2). -/
inductive SampleFormat where
  | s16b | s16l | u8
  deriving DecidableEq, Repr

/-- The format a code names (R3, Table 11-2). -/
def sampleFormatOf : Nat → Option SampleFormat
  | 1 => some .s16b | 2 => some .s16l | 3 => some .u8 | _ => none

/-- The 64 samples of a frame converted by its format (R8); `bytes` is the frame's sample field. -/
def convertSamples (f : SampleFormat) (bytes : List Byte) : Block :=
  Vector.ofFn fun i =>
    match f with
    | .s16b => BitVec.ofNat 16 (wordAt bytes (2 * i.val))
    | .s16l => BitVec.ofNat 16 (byteAt bytes (2 * i.val + 1) * 256 + byteAt bytes (2 * i.val))
    | .u8 => convertU8 (bytes.getD i.val 0)

end Sys2Proof.Machine
end

