-- ==== Sys2Proof/Machine/Mix.lean ====
section
/-! DEFINITION. The mix engine (chapter 3): what a block takes, its completion and delivery, the pacing
of blocks and the catch-up; and the meaning of BLOCK_DEADLINE_EXPIRY. -/

namespace Sys2Proof.Machine

/-! ### The gains of a block (Table 3-4) -/

/-- The value of a gain step as the table holds it (R49). -/
def gainValue (s : State) (g : GainStep) : Int := s.gains[g].value

/-- The source gain step's value of a source that may be absent. -/
def sourceGain (s : State) (i : Option SourceSlot) : List Int :=
  match i with
  | none => []
  | some i => [gainValue s s.sources[i].gainStep]

/-- The announcement that overlays a program. -/
def overlayOf (s : State) (p : ProgNo) : Option Announcement :=
  match s.programs[p].overlayAnn with
  | none => none
  | some a => s.announcements[a]

/-- The duck step's value, present while an announcement overlays the program (R46, R71). -/
def duckGain (s : State) (p : ProgNo) : List Int :=
  match overlayOf s p with
  | none => []
  | some a => [gainValue s a.duckStep]

/-- The gains of the voice contribution (Table 3-4). -/
def voiceGains (s : State) (p : ProgNo) : List Int :=
  let r := s.programs[p]
  match r.mode, r.cond with
  | .linked, _ => gainValue s r.voiceStep :: duckGain s p
  | .interpreter, .fallback =>
    sourceGain s (guideOf s p) ++ gainValue s r.fallbackStep :: duckGain s p
  | _, _ => sourceGain s (leadSource s p) ++ gainValue s r.voiceStep :: duckGain s p

/-- The gains of the floor contribution (Table 3-4). The floor step's value is read from the gain table at every
step, 0 too: DESIGN CHOICE for a LINKED program with floor step 0 while GAIN entry 0 has been written to another
value than 0 (log entry 39). -/
def floorGains (s : State) (p : ProgNo) : List Int :=
  sourceGain s (floorSource s p) ++ gainValue s s.programs[p].floorStep :: duckGain s p

/-- The gains of the overlay contribution (Table 3-4, R71). -/
def overlayGains (s : State) (p : ProgNo) : List Int :=
  match overlayOf s p with
  | none => []
  | some a => [gainValue s s.sources[a.slot].gainStep, gainValue s a.levelStep]

/-- An INTERPRETER program in VOICE whose floor step is 0 has no floor contribution; a LINKED one has one,
with the multiplier that `floorGains` gives (R46; log entry 39). -/
def floorContributes (r : Program) : Bool := r.mode == .linked || r.floorStep != 0

/-! ### What a block takes (R47) -/

/-- What gives a block its voice. -/
inductive LeadInput where
  | take (n : Seq)      -- a lead take by sequence (R41, R43)
  | conceal             -- no lead take (R42, R44)
  | target (b : Block)  -- the target's output block (R45)

/-- The lead's samples (R47). -/
def leadSamples (p : ProgNo) (input : LeadInput) (s : State) : State × Block :=
  match input with
  | .conceal => concealReader p .lead s
  | .target b =>
    (s.modProgram p fun r => { r with lead := { r.lead with conceal := .fresh, prev := some b } }, b)
  | .take n =>
    match leadSource s p with
    | none => concealReader p .lead s
    | some i => answerTake p .lead i (takeBySequence s.sources[i].store n) s

/-- The floor's samples, where the program has a floor: a take of the oldest entry after the floor
cursor, whatever the floor step (R47). -/
def floorSamples (p : ProgNo) (s : State) : State × Option Block :=
  match floorSource s p with
  | none => (s, none)
  | some i =>
    let x := answerTake p .floor i
      (takeOldestAfter s.sources[i].store s.programs[p].floor.cursor) s
    (x.1, some x.2)

/-- The overlay's samples, while an announcement overlays the program: the oldest entry after the
overlay cursor, or the newest one while that is absent (R47). -/
def overlaySamples (p : ProgNo) (s : State) : State × Option Block :=
  match overlaySource s p with
  | none => (s, none)
  | some i =>
    let store := s.sources[i].store
    let answer := match s.programs[p].overlay.cursor with
      | none => takeNewest store
      | some c => takeOldestAfter store (some c)
    let x := answerTake p .overlay i answer s
    (x.1, some x.2)

/-- The contributions to a block (R46), from the samples its readers supplied. Every gain is read at
the block (R58). -/
def contributions (s : State) (p : ProgNo) (voice : Block) (floor overlay : Option Block) :
    List Contribution :=
  let floor := if floorContributes s.programs[p] then floor else none
  [⟨voice, effectiveMultiplier (voiceGains s p)⟩] ++
    (floor.map fun b => ⟨b, effectiveMultiplier (floorGains s p)⟩).toList ++
    (overlay.map fun b => ⟨b, effectiveMultiplier (overlayGains s p)⟩).toList

/-- A block mixed: the state after its takes, and its contributions (R46, R47). -/
def mixBlock (p : ProgNo) (input : LeadInput) (s : State) : State × List Contribution :=
  let v := leadSamples p input s
  let f := floorSamples p v.1
  let o := overlaySamples p f.1
  (o.1, contributions s p v.2 f.2 o.2)

/-! ### Completion and delivery (R55, R56) -/

/-- A block sent as one program frame to each gallery port where the program holds a LIVE carrier
(R56). -/
def deliver (p : ProgNo) (block : Block) (s : State) : State :=
  let count := s.programs[p].blockCount
  forEach (fins 12) (fun g s =>
    match carrierWith s.galleries[g] .live p with
    | none => s
    | some c => handFrame g (.program c p count block) s) s

/-- The block deadline at entry to ACTIVE and at the completion of a block (Table 3-3). -/
def nextBlockDeadline (s : State) (p : ProgNo) : Option Clock :=
  match s.programs[p].pace, s.programs[p].mode with
  | .fill, _ => some (s.after Config.blockMs)
  | .following, .linked => none
  | .following, _ => some (s.after (Config.blockMs + s.limits.mixSlackMs))

/-- Steps 1 to 3 of a completion: count, CLIP, delivery (R55). -/
def countAndSend (p : ProgNo) (cs : List Contribution) (s : State) : State :=
  let s := s.modProgram p fun r => { r with blockCount := r.blockCount + 1 }
  let s := if blockClips cs then recordClip p s.programs[p].blockCount s else s
  deliver p (outputBlock cs) s

/-- Step 5 of a completion (R55). -/
def setBlockDeadline (p : ProgNo) (s : State) : State :=
  s.modProgram p fun r => { r with blockDeadline := nextBlockDeadline s p }

/-- The FOLLOWING LINKED programs that a completion of `p` is the lead event of (R57). -/
def linkersOf (s : State) (p : ProgNo) : List ProgNo :=
  (fins 96).filter fun q =>
    let r := s.programs[q]
    r.state == .active && r.mode == .linked && r.pace == .following && r.target == some p

/-- A linker's block at its target's completion (R45, R57). A LINKED program is never a target (R32),
so the completion is handed no further (log entry 22). -/
def linkedBlock (b : Block) (q : ProgNo) (s : State) : State :=
  let x := mixBlock q (.target b) s
  setBlockDeadline q (countAndSend q x.2 x.1)

/-- A block mixed and completed, without the catch-up (R55 steps 1 to 5). -/
def blockEvent (p : ProgNo) (input : LeadInput) (s : State) : State :=
  let x := mixBlock p input s
  let s := countAndSend p x.2 x.1
  let s := forEach (linkersOf s p) (linkedBlock (outputBlock x.2)) s
  setBlockDeadline p s

/-! ### Pacing (R41 to R44) -/

/-- The sequence a FOLLOWING program with a source as lead catches up with: the entry after its lead
cursor, when the store holds it (R43). -/
def catchUpEntry (s : State) (p : ProgNo) : Option Seq :=
  let r := s.programs[p]
  if r.state = .active ∧ r.pace = .following then
    match leadSource s p, r.lead.cursor with
    | some i, some c => (takeBySequence s.sources[i].store (c + 1)).map (·.seq)
    | _, _ => none
  else none

/-- The catch-up: further blocks while the entry after the lead cursor is present (R43). Each takes one
entry, so as many rounds as the lead's store has entries are enough. -/
def catchUpRounds : Nat → ProgNo → State → State
  | 0, _, s => s
  | k + 1, p, s =>
    match catchUpEntry s p with
    | none => s
    | some n => catchUpRounds k p (blockEvent p (.take n) s)

/-- The catch-up of R43. -/
def catchUp (p : ProgNo) (s : State) : State :=
  match leadSource s p with
  | none => s
  | some i => catchUpRounds s.sources[i].store.length p s

/-- The arrival of entry `n` at a source paces the FOLLOWING programs whose lead cursor is bound to it
and is absent or one behind (R41). -/
def arrivalAt (i : SourceSlot) (n : Seq) (p : ProgNo) (s : State) : State :=
  let r := s.programs[p]
  if r.state = .active ∧ r.pace = .following ∧ leadSource s p = some i then
    match r.lead.cursor with
    | none => catchUp p (blockEvent p (.take n) s)
    | some c => if n = c + 1 then catchUp p (blockEvent p (.take n) s) else s
  else s

/-- The mix engine is told of a new entry (R5 step 7, R41). -/
def entryArrived (i : SourceSlot) (n : Seq) (s : State) : State :=
  forEach (fins 96) (arrivalAt i n) s

/-- The lead cursor advances by one without a take, which is a change of cursor for the removal rule
(R42). -/
def advanceLead (p : ProgNo) (s : State) : State :=
  match s.programs[p].lead.cursor with
  | none => s
  | some c =>
    applyRemovalTo (leadSource s p)
      (s.modProgram p fun r => { r with lead := { r.lead with cursor := some (c + 1) } })

/-- The block deadline of an ACTIVE program expires: in FOLLOWING with a source as lead, R42; in FILL,
R44. A LINKED program in FOLLOWING has no other cause of blocks than its target (R45). -/
def blockExpiry (p : ProgNo) (s : State) : State :=
  let r := s.programs[p]
  if r.state = .active ∧ s.due r.blockDeadline = true then
    match r.pace with
    | .fill => blockEvent p .conceal s
    | .following =>
      if r.mode = .linked then s else catchUp p (advanceLead p (blockEvent p .conceal s))
  else s

/-- BLOCK_DEADLINE_EXPIRY (R42, R44). -/
def execBlockDeadlineExpiry (p : ProgNo) (s : State) : Host.Outcome State Fault Refusal :=
  s.running (blockExpiry p)

end Sys2Proof.Machine
end

