-- ==== Sys2Proof/Machine/Tours.lean ====
section
/-! DEFINITION. The tour unit (chapter 2) and the choice of overlay (4.5): wanted and ACTIVE with their
entry and exit, voice condition and pace, and what a change of a source's state does to programs. -/

namespace Sys2Proof.Machine

/-! ### Choosing the overlay (R69, R70) -/

/-- The ports of an announcement's zones, as the zone table holds them now (R69). -/
def announcedPorts (s : State) (a : Announcement) : List PortNo :=
  (fins 12).filter fun g => (fins 8).any fun z =>
    a.zones.getLsbD z.val && s.zones[z].members.getLsbD g.val

/-- The announcement is ON and applies to the program (R69). -/
def applies (s : State) (p : ProgNo) (a : Announcement) : Bool :=
  a.state == .on && s.tours[tourOf p].gallerySet.any fun g => (announcedPorts s a).contains g

/-- The ON announcements that apply to a program, by record number. -/
def applying (s : State) (p : ProgNo) : List (AnnNo × Announcement) :=
  (fins 4).filterMap fun n =>
    match s.announcements[n] with
    | none => none
    | some a => if applies s p a then some (n, a) else none

/-- The first is ranked before the second: priority, then start stamp, then record number (R69). -/
def overlayBefore (x y : AnnNo × Announcement) : Bool :=
  if x.2.priority ≠ y.2.priority then y.2.priority < x.2.priority
  else if x.2.startStamp ≠ y.2.startStamp then
    match x.2.startStamp, y.2.startStamp with
    | some a, some b => earlier a b
    | some _, none => true
    | none, _ => false
  else x.1 < y.1

/-- The overlay of a program under R69. -/
def chosenOverlay (s : State) (p : ProgNo) : Option AnnNo :=
  (bestOf overlayBefore (applying s p)).map (·.1)

/-- The choice for one program (R70): nothing when it is the same, a reset overlay cursor when it is
another, an absent one when there is none. The former announcer's store applies its removal rule. -/
def chooseOverlay (p : ProgNo) (s : State) : State :=
  let r := s.programs[p]
  if r.state ≠ .active then s
  else
    let choice := chosenOverlay s p
    if choice = r.overlayAnn then s
    else
      let former := overlaySource s p
      let s := s.modProgram p fun r =>
        { r with
          overlayAnn := choice
          overlay := match choice with
            | some _ => Reader.initial
            | none => { r.overlay with cursor := none } }
      applyRemovalTo former s

/-- The choice for every program (R70: only ACTIVE ones are chosen for). -/
def chooseAllOverlays (s : State) : State := forEach (fins 96) chooseOverlay s

/-- The choice for the programs of one tour (R70). -/
def chooseTourOverlays (t : TourNo) (s : State) : State := forEach (progsOf t) chooseOverlay s

/-! ### Voice condition and pace (R30, R31, R39, R40) -/

/-- A source is LIVE. -/
def isLive (s : State) (i : Option SourceSlot) : Bool :=
  match i with
  | none => false
  | some i => s.sources[i].state == .live

/-- The interpreter of a program is available (R30). -/
def interpreterAvailable (s : State) (p : ProgNo) : Bool :=
  match s.programs[p].interpreter with
  | none => false
  | some i => s.sources[i].state == .live && s.sources[i].role == .interpreter

/-- The guide of a program's tour is available (R30). -/
def guideAvailable (s : State) (p : ProgNo) : Bool := isLive s (guideOf s p)

/-- The voice condition under R30: of an ACTIVE INTERPRETER program by what is available, kept while
neither is, and VOICE for every other program. -/
def derivedCond (s : State) (p : ProgNo) : VoiceCond :=
  let r := s.programs[p]
  if r.state = .active ∧ r.mode = .interpreter then
    if interpreterAvailable s p then .voice
    else if guideAvailable s p then .fallback
    else r.cond
  else .voice

/-- The lead of a program is present (Table 2-4). -/
def leadPresent (s : State) (p : ProgNo) : Bool :=
  let r := s.programs[p]
  match r.mode, r.cond with
  | .guide, _ => guideAvailable s p
  | .interpreter, .voice => interpreterAvailable s p
  | .interpreter, .fallback => guideAvailable s p
  | .linked, _ =>
    match r.target with
    | none => false
    | some t => s.programs[t].state == .active
  | .unset, _ => false

/-- The pace of an ACTIVE program (R31). -/
def derivedPace (s : State) (p : ProgNo) : Pace := if leadPresent s p then .following else .fill

/-- The block deadline at a change to this pace (Table 3-3, third row). -/
def paceDeadline (s : State) (p : ProgNo) (pace : Pace) : Option Clock :=
  let r := s.programs[p]
  match pace, r.mode with
  | .following, .linked => none
  | .following, _ => r.blockDeadline
  | .fill, _ => some (r.blockDeadline.getD (s.after Config.blockMs))

/-- The pace derived anew; a change sets the block deadline (R31, R40). -/
def derivePace (p : ProgNo) (s : State) : State :=
  let r := s.programs[p]
  if r.state ≠ .active then s
  else
    let pace := derivedPace s p
    if pace = r.pace then s
    else s.modProgram p fun r => { r with pace := pace, blockDeadline := paceDeadline s p pace }

/-- One behind the newest present entry of a source (R39). -/
def behindNewest (s : State) (i : Option SourceSlot) : Option Seq :=
  match i with
  | none => none
  | some i => (takeNewest s.sources[i].store).map fun e => e.seq - 1

/-- The guide's reading state moved between floor and lead at a change of voice condition, and the
removal rule of both stores (R39). -/
def moveReading (p : ProgNo) (cond : VoiceCond) (s : State) : State :=
  let s := match cond with
    | .fallback => s.modProgram p fun r =>
      { r with cond := .fallback, lead := r.floor, floor := Reader.initial }
    | .voice => s.modProgram p fun r =>
      { r with cond := .voice, floor := r.lead
               lead := { cursor := behindNewest s r.interpreter, conceal := .fresh, prev := none } }
  applyRemovalTo (guideOf s p) (applyRemovalTo s.programs[p].interpreter s)

/-- Voice condition and pace of a program derived anew after a change of state of one of its sources:
R39 first, then R31, then the catch-up of R43 on a lead cursor that was moved. -/
def deriveVoice (p : ProgNo) (s : State) : State :=
  if s.programs[p].state ≠ .active then s
  else
    let cond := derivedCond s p
    if cond = s.programs[p].cond then derivePace p s
    else catchUp p (derivePace p (moveReading p cond s))

/-- A program names a source: as its tour's guide or as its interpreter. -/
def namesSource (s : State) (i : SourceSlot) (p : ProgNo) : Bool :=
  guideOf s p == some i || s.programs[p].interpreter == some i

/-- The guide frozen flag of the OPEN tours that name a guide source (R24). -/
def setGuideFrozen (i : SourceSlot) (frozen : Bool) (s : State) : State :=
  forEach (fins 24) (fun t s =>
    if s.tours[t].state = .opened ∧ s.tours[t].guide = some i then
      s.modTour t fun r => { r with guideFrozen := frozen }
    else s) s

/-- The tour unit and the mix engine take a change of a source's state (R10, R24, R30, R31). `flag` is
the guide frozen flag that the change sets, if it sets it. -/
def programsFollow (i : SourceSlot) (flag : Option Bool) (s : State) : State :=
  let s := match flag with
    | none => s
    | some b => setGuideFrozen i b s
  forEach (fins 96) (fun p s => if namesSource s i p then deriveVoice p s else s) s

/-! ### Wanted and ACTIVE (R26) -/

/-- A program is mixable (R26). -/
def isMixable (s : State) (p : ProgNo) : Bool :=
  s.tours[tourOf p].state == .opened && s.programs[p].mode != .unset

/-- A program is wanted (R26). -/
def isWanted (s : State) (p : ProgNo) : Bool :=
  isMixable s p && (0 < receiverSum s p || s.programs[p].carryAlways)

/-- A program is the target of a wanted LINKED program (R26). -/
def isWantedTarget (s : State) (p : ProgNo) : Bool :=
  (fins 96).any fun q =>
    s.programs[q].mode == .linked && s.programs[q].target == some p && isWanted s q

/-- A program is to be ACTIVE (R26). -/
def toBeActive (s : State) (p : ProgNo) : Bool :=
  isWanted s p || (isMixable s p && isWantedTarget s p)

/-- The program state of a program that is not ACTIVE (R26). -/
def restState (r : Program) : ProgState := if r.mode = .unset then .unset else .dormant

/-- The LINKED programs that target a program derive their pace anew (R31). -/
def deriveLinkers (p : ProgNo) (s : State) : State :=
  forEach (fins 96) (fun q s =>
    if s.programs[q].mode = .linked ∧ s.programs[q].target = some p then derivePace q s else s) s

/-- Entry to ACTIVE (R27). -/
def enterActive (p : ProgNo) (s : State) : State :=
  let s := s.modProgram p fun r =>
    { r with state := .active, lead := Reader.initial, floor := Reader.initial
             overlay := Reader.initial, overlayAnn := none, cond := .voice }
  let s := s.modProgram p fun r => { r with cond := derivedCond s p }
  let s := s.modProgram p fun r => { r with pace := derivedPace s p }
  let s := chooseOverlay p s
  let s := setBlockDeadline p s
  deriveLinkers p s

/-- A reader at leaving ACTIVE: its previous samples are kept, unused (Table 3-1). -/
def Reader.idle (r : Reader) : Reader := { r with cursor := none, conceal := .fresh }

/-- Leaving ACTIVE (R28). -/
def leaveActive (p : ProgNo) (s : State) : State :=
  let read := (fins 64).filter fun i => isReader s i p
  let s := s.modProgram p fun r =>
    { r with state := restState r, blockDeadline := none, lead := r.lead.idle, floor := r.floor.idle
             overlay := r.overlay.idle, overlayAnn := none, pace := .fill, cond := .voice }
  deriveLinkers p (forEach read applyRemoval s)

/-- Demand arrivals of a program for each gallery of its tour's set, in the order of the set (R27,
R29). -/
def demandArrivals (p : ProgNo) (s : State) : State :=
  forEach s.tours[tourOf p].gallerySet (demandArrival p) s

/-- Demand ends of a program for each gallery of its tour's set, in the order of the set (R28, R29). -/
def demandEnds (p : ProgNo) (s : State) : State :=
  forEach s.tours[tourOf p].gallerySet (demandEnd p) s

/-- The program state that R26 gives is brought about: entry (R27), exit (R28) or neither. -/
def settleState (p : ProgNo) (s : State) : State :=
  let r := s.programs[p]
  if toBeActive s p then
    if r.state = .active then s else enterActive p s
  else if r.state = .active then leaveActive p s
  else s.modProgram p fun r => { r with state := restState r }

/-- Wanted and ACTIVE of one program derived anew, with its demand (R26 to R29). -/
def derive (p : ProgNo) (s : State) : State :=
  let was := s.programs[p].wanted
  let now := isWanted s p
  let s := settleState p (s.modProgram p fun r => { r with wanted := now })
  if now && !was then demandArrivals p s
  else if was && !now then demandEnds p s
  else s

/-- The targets of the LINKED programs among these. -/
def targetsOf (s : State) (ps : List ProgNo) : List ProgNo :=
  ps.filterMap fun p => if s.programs[p].mode = .linked then s.programs[p].target else none

/-- The derivation for the programs concerned by an event, and for the targets of those (R26). -/
def rederive (ps : List ProgNo) (s : State) : State :=
  forEach (ps ++ targetsOf s ps) derive s

/-- A change of a program's counts: R26, and the new carry rank of a wanted program (R29, R116). -/
def changeCounts (p : ProgNo) (f : Program → Program) (s : State) : State :=
  let s := rederive [p] (s.modProgram p f)
  if s.programs[p].wanted then rerank [p] s else s

/-- A keyed receiver more (R122). -/
def countKeyed (p : ProgNo) (s : State) : State :=
  changeCounts p (fun r => { r with keyed := r.keyed + 1 }) s

/-- A keyed receiver less (R130, R131). -/
def uncountKeyed (p : ProgNo) (s : State) : State :=
  changeCounts p (fun r => { r with keyed := r.keyed - 1 }) s

/-- A keyed receiver issued: both counts move as one change (R116, R125). -/
def countIssue (p : ProgNo) (s : State) : State :=
  changeCounts p (fun r => { r with keyed := r.keyed - 1, issued := r.issued + 1 }) s

/-- An issued receiver returned (R128). -/
def countReturn (p : ProgNo) (s : State) : State :=
  changeCounts p (fun r => { r with issued := r.issued - 1 }) s

end Sys2Proof.Machine
end

