-- ==== Sys2Proof/Machine/Racks.lean ====
section
/-! DEFINITION. The charging racks (chapter 8) and what the fleet unit keeps in order: changes of a
receiver record, the ready pool (R118), charge queue and grants (R137, R138), key queue, abandoned list
and sending (R141 to R143), and selection for the outfit orders (R121). -/

namespace Sys2Proof.Machine

/-! ### A receiver record (R114) -/

/-- Change a receiver's battery, charging, dock stamp or unconfirmed mark: the generation stays. -/
def State.noteReceiver (s : State) (r : RecNo) (f : ReceiverData → ReceiverData) : State :=
  s.modReceiver r fun x => { x with data := x.data.map f }

/-- Change a receiver's state, place or keyed program: the generation advances (R114; log entry 14). -/
def State.changeReceiver (s : State) (r : RecNo) (f : ReceiverData → ReceiverData) : State :=
  s.modReceiver r fun x => { data := x.data.map f, generation := x.generation + 1 }

/-- Where a receiver is docked. -/
def placeOf (s : State) (r : RecNo) : Option (PortNo × RackSlot) :=
  match s.receivers[r].data with
  | none => none
  | some d => d.place

/-- The receiver's state "by battery" (R115). -/
def byBattery (s : State) (battery : Nat) : RecState :=
  if s.limits.readyThreshold ≤ battery then .dockedReady else .dockedCharging

/-- The records docked in a rack, ascending. -/
def recordsIn (s : State) (g : PortNo) : List RecNo :=
  (fins 320).filter fun r => (placeOf s r).map (·.1) == some g

/-- The records in the slots of a rack, by ascending slot. -/
def slotRecords (e : Rack) : List (RackSlot × RecNo) :=
  (fins 40).filterMap fun k =>
    match e.slots[k].occupant with
    | .receiver r => some (k, r)
    | .empty | .unregistered => none

/-- A stamp comes before another; a present one before an absent one. -/
def stampBefore : Option Clock → Option Clock → Bool
  | some a, some b => earlier a b
  | some _, none => true
  | none, _ => false

/-! ### The ready pool (R118) -/

/-- Port and slot as one number: lower port first, then lower slot. -/
def placeNumber (place : Option (PortNo × RackSlot)) : Nat :=
  match place with
  | none => 480
  | some (g, k) => g.val * 40 + k.val

/-- The order of the pool: battery highest first, dock stamp earliest first, port, slot (R118). -/
def poolBefore (s : State) (x y : RecNo) : Bool :=
  match s.receivers[x].data, s.receivers[y].data with
  | some a, some b =>
    if a.battery ≠ b.battery then b.battery < a.battery
    else if a.dockStamp ≠ b.dockStamp then stampBefore a.dockStamp b.dockStamp
    else placeNumber a.place < placeNumber b.place
  | some _, none => true
  | none, _ => false

/-- A receiver put in the pool at its place. -/
def poolInsert (r : RecNo) (s : State) : State :=
  { s with pool := insertBefore (poolBefore s) r s.pool }

/-- A receiver taken out of the pool. -/
def poolLeave (r : RecNo) (s : State) : State := { s with pool := s.pool.filter fun x => !(x == r) }

/-- A pool member moved to the place its level gives; no entry, and no selection (R118, R139). -/
def poolMove (r : RecNo) (s : State) : State :=
  if s.pool.contains r then poolInsert r (poolLeave r s) else s

/-! ### The key queue (R141 to R144) -/

/-- The slot of a key order. -/
def KeyOrder.slot : KeyOrder → RackSlot
  | .key k _ => k
  | .unkey k => k

/-- The order in flight. -/
def Rack.flying (e : Rack) : Option KeyOrder := if e.inFlight then e.keyQueue.head? else none

/-- The orders that wait. -/
def Rack.waiting (e : Rack) : List KeyOrder := if e.inFlight then e.keyQueue.drop 1 else e.keyQueue

/-- A key queue with other waiting orders. -/
def Rack.withWaiting (e : Rack) (w : List KeyOrder) : Rack :=
  { e with keyQueue := e.flying.toList ++ w }

/-- The slot's unkey owed mark set (R135). -/
def Rack.owe (e : Rack) (k : RackSlot) (owed : Bool) : Rack :=
  { e with slots := e.slots.set k { e.slots[k] with unkeyOwed := owed } }

/-- A KEY placed: in the place of a waiting UNKEY for the slot, else at the tail; the slot's mark becomes
no (R141). -/
def Rack.placeKey (k : RackSlot) (p : ProgNo) (e : Rack) : Rack :=
  let w := e.waiting
  let w := if w.contains (.unkey k) then w.map fun o => if o = .unkey k then .key k p else o
    else w ++ [.key k p]
  (e.withWaiting w).owe k false

/-- An UNKEY placed: at the tail, unless one waits for the slot; the slot's mark becomes yes (R141). -/
def Rack.placeUnkey (k : RackSlot) (e : Rack) : Rack :=
  let w := e.waiting
  let w := if w.contains (.unkey k) then w else w ++ [.unkey k]
  (e.withWaiting w).owe k true

/-- The order in flight is done: it leaves the head of the queue (R143). -/
def Rack.finish (e : Rack) : Rack :=
  { e with keyQueue := e.keyQueue.drop 1, inFlight := false, attempts := 0, keyDeadline := none }

/-- The abandoned list with a slot appended; of 40 entries the oldest is dropped (R143). -/
def pushAbandoned (list : List RackSlot) (k : RackSlot) : List RackSlot :=
  (if Config.abandonedDepth ≤ list.length then list.drop 1 else list) ++ [k]

/-- The slot's waiting orders removed, and its order in flight abandoned (R144). -/
def Rack.dropOrders (k : RackSlot) (e : Rack) : Rack :=
  let e := e.withWaiting (e.waiting.filter fun o => !(o.slot == k))
  match e.flying with
  | none => e
  | some o => if o.slot = k then { e.finish with abandoned := pushAbandoned e.abandoned k } else e

/-- The frame of a key order: tour and language code of a KEY are read as it is sent (R121, R142). -/
def keyFrame (s : State) : KeyOrder → RackOrder
  | .key k p => .key k p (tourOf p) s.programs[p].language
  | .unkey k => .unkey k

/-- Send a key order, `attempts` resends so far, and set the key deadline (R142). -/
def sendOrder (g : PortNo) (o : KeyOrder) (attempts : Nat) (s : State) : State :=
  (handFrame g (.order (keyFrame s o)) s).modRack g fun e =>
    { e with inFlight := true, attempts := attempts
             keyDeadline := some (s.after Config.keyDeadlineMs) }

/-- The head of a rack's key queue is sent when the rack is online and none is in flight (R142). -/
def sendHead (g : PortNo) (s : State) : State :=
  let e := s.racks[g]
  match e.keyQueue with
  | [] => s
  | o :: _ => if e.online && !e.inFlight then sendOrder g o 0 s else s

/-- The sendings at the end of an event (R142; rack by rack, log entry 20). -/
def sendKeys (s : State) : State := forEach (fins 12) sendHead s

/-! ### Selection (R121) -/

/-- The shortfall W − K − S of an order (R119). -/
def OutfitOrder.shortfall (o : OutfitOrder) : Nat := o.want - o.keyed - o.selected

/-- The program of an order. -/
def OutfitOrder.program (o : OutfitOrder) : ProgNo := progOf o.tour o.lang

/-- Change the order of this number. -/
def modOrder (n : BitVec 16) (f : OutfitOrder → OutfitOrder) (s : State) : State :=
  { s with outfits := s.outfits.map fun o => if o.number = n then f o else o }

/-- Change the order a receiver is selected for, if any. -/
def modOrderOf (n : Option (BitVec 16)) (f : OutfitOrder → OutfitOrder) (s : State) : State :=
  match n with
  | none => s
  | some n => modOrder n f s

/-- The KEY for a selected receiver's slot (R121 step 2). -/
def placeKeyFor (r : RecNo) (p : ProgNo) (s : State) : State :=
  match placeOf s r with
  | none => s
  | some (g, k) => s.modRack g (Rack.placeKey k p)

/-- The head of the pool is selected for an order (R121 steps 1 to 3). -/
def selectHead (o : OutfitOrder) (s : State) : State :=
  match s.pool with
  | [] => s
  | r :: rest =>
    let s := ({ s with pool := rest }).changeReceiver r fun d =>
      { d with state := .keying, keyedProgram := some o.program, outfit := some o.number }
    modOrder o.number (fun o => { o with selected := o.selected + 1 }) (placeKeyFor r o.program s)

/-- An order's shortfall filled from the pool, as far as it goes. -/
def fillOrder (o : OutfitOrder) (s : State) : State :=
  forEach (List.range o.shortfall) (fun _ => selectHead o) s

/-- Selection: the orders oldest first (R121). -/
def runSelection (s : State) : State := forEach s.outfits fillOrder s

/-- A receiver that is DOCKED_READY enters the pool when its rack is online, and selection runs (R118). -/
def enterPool (r : RecNo) (s : State) : State :=
  match placeOf s r with
  | none => s
  | some (g, _) => if s.racks[g].online then runSelection (poolInsert r s) else s

/-! ### Charging (R137, R138, R140) -/

/-- The receiver is in the critical class (R137). -/
def isCritical (s : State) (d : ReceiverData) : Bool := d.battery < s.limits.critical

/-- The order of a charge queue: critical class, dock stamp, slot (R137). -/
def chargeBefore (s : State) (x y : RecNo) : Bool :=
  match s.receivers[x].data, s.receivers[y].data with
  | some a, some b =>
    if isCritical s a ≠ isCritical s b then isCritical s a
    else if a.dockStamp ≠ b.dockStamp then stampBefore a.dockStamp b.dockStamp
    else placeNumber a.place < placeNumber b.place
  | some _, none => true
  | none, _ => false

/-- The conditions of the charge queue (R137). -/
def wantsCharge (d : ReceiverData) : Bool := d.battery < 100 && !d.charging && d.state != .faulty

/-- A receiver taken out of its rack's charge queue. -/
def chargeLeave (g : PortNo) (r : RecNo) (s : State) : State :=
  s.modRack g fun e => { e with chargeQueue := e.chargeQueue.filter fun x => !(x == r) }

/-- A receiver put where R137 has it: in the queue of an online rack at its place when it meets the
conditions, out of the queue otherwise. -/
def chargeSettle (g : PortNo) (r : RecNo) (s : State) : State :=
  let s := chargeLeave g r s
  match s.receivers[r].data with
  | none => s
  | some d =>
    if s.racks[g].online && wantsCharge d then
      s.modRack g fun e => { e with chargeQueue := insertBefore (chargeBefore s) r e.chargeQueue }
    else s

/-- The charge queue of a rack that came online, built from its receivers (R147 step 4). -/
def chargeAll (g : PortNo) (s : State) : State :=
  forEach ((slotRecords s.racks[g]).map (·.2)) (chargeSettle g) s

/-- A charge queue ordered again after a write of the critical threshold (R136, R137). -/
def chargeSort (g : PortNo) (s : State) : State :=
  s.modRack g fun e =>
    { e with chargeQueue := e.chargeQueue.foldr (insertBefore (chargeBefore s)) [] }

/-- A grant freed (R138). -/
def freeGrant (g : PortNo) (r : RecNo) (s : State) : State :=
  (s.modRack g fun e => { e with grants := e.grants.filter fun x => !(x == r) }).noteReceiver r
    fun d => { d with charging := false }

/-- A grant or a revocation sent to the receiver's slot (R138, R140). -/
def chargeFrame (g : PortNo) (r : RecNo) (order : RackSlot → RackOrder) (s : State) : State :=
  match placeOf s r with
  | none => s
  | some (_, k) => handFrame g (.order (order k)) s

/-- The head of the charge queue is granted when the rack is online and under its limit (R138). -/
def issueOne (g : PortNo) (s : State) : State :=
  let e := s.racks[g]
  match e.chargeQueue with
  | [] => s
  | r :: rest =>
    if e.online = true ∧ e.grants.length < e.grantLimit then
      let s := s.modRack g fun e => { e with chargeQueue := rest, grants := e.grants ++ [r] }
      chargeFrame g r .grant (s.noteReceiver r fun d => { d with charging := true })
    else s

/-- Grant issue (R138). -/
def issueGrants (g : PortNo) (s : State) : State :=
  forEach (List.range s.racks[g].chargeQueue.length) (fun _ => issueOne g) s

/-- The most recent grant revoked, when more are held than the limit allows (R140). -/
def revokeOne (g : PortNo) (s : State) : State :=
  let e := s.racks[g]
  match e.grants.getLast? with
  | none => s
  | some r =>
    if e.grantLimit < e.grants.length then chargeSettle g r (freeGrant g r (chargeFrame g r .revoke s))
    else s

/-- A written grant limit takes effect: grants above it are revoked, most recent first; below it grant
issue runs (R140). -/
def applyGrantLimit (g : PortNo) (s : State) : State :=
  issueGrants g (forEach (List.range s.racks[g].grants.length) (fun _ => revokeOne g) s)

end Sys2Proof.Machine
end

