-- ==== Sys2Proof/Machine/Receive.lean ====
section
/-! DEFINITION. Receiving a frame at a port: the four checks of R167, in their order. -/

namespace Sys2Proof.Machine

/-- The frame kinds the hub receives (Table 11-1). -/
inductive RxKind where
  | voice | report | request
  deriving DecidableEq, Repr

/-- The received kind a code names; the kinds the hub sends are not received (R167 step 2). -/
def rxKindOf (code : Byte) : Option RxKind :=
  if code = 0x01 then some .voice
  else if code = 0x04 then some .report
  else if code = 0x06 then some .request
  else none

/-- The payload length fits the kind (R167 step 3, Table 11-1). -/
def RxKind.fitsLength (k : RxKind) (n : Nat) : Bool :=
  match k with
  | .voice => n == 133
  | .report => n == 6
  | .request => 3 ≤ n

/-- The kind fits the port's role (R167 step 4, Table 10-1). -/
def RxKind.fitsRole (k : RxKind) (r : PortRole) : Bool :=
  match k with
  | .voice => r == .gallery || r == .desk
  | .report => r == .rack
  | .request => r == .desk

/-- The payload of a frame of this kind that a port takes; none when the frame is discarded, or is of
another kind (R167). A port that is DOWN receives nothing (R168). -/
def receive (p : PortNo) (k : RxKind) (frame : List Byte) (s : State) : Option (List Byte) :=
  match openEnvelope frame with
  | none => none
  | some (code, payload) =>
    if s.ports[p].link = .up ∧ rxKindOf code = some k ∧ k.fitsLength payload.length = true ∧
        k.fitsRole s.ports[p].role = true then
      some payload
    else none

end Sys2Proof.Machine
end

