-- ==== Sys2Proof/Machine/Fleet.lean ====
section
/-! DEFINITION. The receiver fleet (chapter 7) and the events of its racks (8.2 to 8.4): docking,
undocking, faults, key outcomes, battery reports, orders cancelled, tours closed, racks going offline and
coming back; and the meanings of the eight rack reports and the three fleet deadline expiries. -/

namespace Sys2Proof.Machine

/-! ### Outfit orders (R119, R120, R122) -/

/-- The order number after `n`: from 65535 to 1 (R119). -/
def followingNumber (n : BitVec 16) : BitVec 16 := if n = 0xFFFF then 1 else n + 1

/-- The first number from `n` on that no order of the queue holds; at most 8 are held (R119). -/
def unheldNumber : Nat → List OutfitOrder → BitVec 16 → BitVec 16
  | 0, _, n => n
  | k + 1, orders, n =>
    if orders.any fun o => o.number == n then unheldNumber k orders (followingNumber n) else n

/-- An order created at the tail, and selection (R120 steps 1 and 2). -/
def createOrder (t : TourNo) (l : LangSlot) (want : Nat) (s : State) : State :=
  let o : OutfitOrder :=
    { number := s.nextOrder, tour := t, lang := l, want := want, selected := 0, keyed := 0, failed := 0 }
  let orders := s.outfits ++ [o]
  runSelection
    { s with outfits := orders
             nextOrder := unheldNumber Config.outfitOrders orders (followingNumber s.nextOrder) }

/-- The order of a number. -/
def orderOf (s : State) (n : BitVec 16) : Option OutfitOrder := s.outfits.find? fun o => o.number == n

/-- An order with K = W is removed, with OUTFIT_DONE (R122 step 4). -/
def completeOrder (n : BitVec 16) (s : State) : State :=
  match orderOf s n with
  | none => s
  | some o =>
    if o.want ≤ o.keyed then
      queueNotice .outfitDone (some n) (subjectOf o.program.val) (BitVec.ofNat 16 o.failed)
        { s with outfits := s.outfits.filter fun x => !(x.number == n) }
    else s

/-- An order's receiver keyed: S − 1, K + 1 (R122 step 2). -/
def OutfitOrder.keyedOne (o : OutfitOrder) : OutfitOrder :=
  { o with selected := o.selected - 1, keyed := o.keyed + 1 }

/-- An order's receiver lost without failure: S − 1 (R125, R145). -/
def OutfitOrder.lostOne (o : OutfitOrder) : OutfitOrder := { o with selected := o.selected - 1 }

/-- An order's receiver failed: F + 1 saturating, S − 1 (R130). -/
def OutfitOrder.failedOne (o : OutfitOrder) : OutfitOrder :=
  { o with failed := min 255 (o.failed + 1), selected := o.selected - 1 }

/-! ### Undocking (R125, R144) -/

/-- The receiver of a record leaves its slot: what R125 does to its fields. -/
def ReceiverData.away (d : ReceiverData) (state : RecState) : ReceiverData :=
  { d with state := state, place := none, dockStamp := none, charging := false, unconfirmed := false }

/-- The receiver's own part of an undock, by its state (R125). -/
def undockEffect (r : RecNo) (d : ReceiverData) (s : State) : State :=
  match d.state with
  | .keyed =>
    let s := s.changeReceiver r fun d =>
      { d.away .issued with
        issueStamp := some s.clock, loanDeadline := some (s.after (s.limits.loanMin * 60000)) }
    match d.keyedProgram with
    | none => s
    | some p => countIssue p s
  | .dockedCharging | .dockedReady => s.changeReceiver r fun d => d.away .stray
  | .keying =>
    let s := s.changeReceiver r fun d => { d.away .stray with keyedProgram := none, outfit := none }
    runSelection (modOrderOf d.outfit OutfitOrder.lostOne s)
  | .faulty => s.modReceiver r fun x => { data := none, generation := x.generation + 1 }
  | .issued | .overdue | .stray => s

/-- A slot made empty, with no unkey owed (R125, R135). -/
def emptySlot (g : PortNo) (k : RackSlot) (s : State) : State := s.modSlot g k fun _ => SlotEntry.initial

/-- A receiver undocked from its slot (R125): its orders removed or abandoned (R144), its places in pool,
charge queue and grant list left, the slot emptied, its own change, and grant issue (log entry 19). -/
def undockReceiver (g : PortNo) (k : RackSlot) (r : RecNo) (s : State) : State :=
  match s.receivers[r].data with
  | none => emptySlot g k s
  | some d =>
    let s := s.modRack g (Rack.dropOrders k)
    let s := freeGrant g r (chargeLeave g r (poolLeave r s))
    issueGrants g (undockEffect r d (emptySlot g k s))

/-- Whatever is in a slot undocked (R125). -/
def undockSlot (g : PortNo) (k : RackSlot) (s : State) : State :=
  match s.racks[g].slots[k].occupant with
  | .empty => s
  | .unregistered => emptySlot g k s
  | .receiver r => undockReceiver g k r s

/-! ### Faults (R130, R144) -/

/-- What a fault does by the state the receiver held before (R130's table). -/
def faultEffect (d : ReceiverData) (s : State) : State :=
  match d.state, d.keyedProgram with
  | .keying, _ => runSelection (modOrderOf d.outfit OutfitOrder.failedOne s)
  | .keyed, some p => uncountKeyed p s
  | _, _ => s

/-- The receiver in a slot becomes FAULTY (R130, R144): orders, pool, charge queue, grant with its REVOKE
(R140), the slot's mark, its own change, and grant issue (log entry 19). A FAULTY one stays as it is. -/
def faultReceiver (g : PortNo) (k : RackSlot) (r : RecNo) (s : State) : State :=
  match s.receivers[r].data with
  | none => s
  | some d =>
    if d.state = .faulty then s
    else
      let s := s.modRack g fun e => (e.dropOrders k).owe k false
      let s := chargeLeave g r (poolLeave r s)
      let s := if s.racks[g].grants.contains r then
        freeGrant g r (handFrame g (.order (.revoke k)) s) else s
      let s := s.changeReceiver r fun d =>
        { d with state := .faulty, keyedProgram := none, outfit := none, charging := false }
      issueGrants g (faultEffect d s)

/-- KEY_FAILED: detail 256 × cause + kind (R132). -/
def keyFailedNotice (r : RecNo) (d : ReceiverData) (cause kind : Nat) (s : State) : State :=
  queueNotice .keyFailed (subjectOf r.val) (d.keyedProgram.map fun p => BitVec.ofNat 16 p.val)
    (BitVec.ofNat 16 (256 * cause + kind)) s

/-- SLOT_FAULT for a slot (R144): only a receiver that is not FAULTY is concerned. -/
def slotFaultReport (g : PortNo) (k : RackSlot) (s : State) : State :=
  match s.racks[g].slots[k].occupant with
  | .empty | .unregistered => s
  | .receiver r =>
    match s.receivers[r].data with
    | none => s
    | some d =>
      let t := faultReceiver g k r s
      if d.state = .keying then keyFailedNotice r d 3 1 t else t

/-! ### Outcomes of key orders (R122, R123, R143) -/

/-- The success of a KEY applied to a KEYING receiver (R122). -/
def keySuccess (r : RecNo) (d : ReceiverData) (s : State) : State :=
  let s := s.changeReceiver r fun d => { d with state := .keyed, outfit := none }
  let s := modOrderOf d.outfit OutfitOrder.keyedOne s
  let s := match d.keyedProgram with
    | none => s
    | some p => countKeyed p s
  match d.outfit with
  | none => s
  | some n => completeOrder n s

/-- The success of the order that was in flight (R122, R143). -/
def orderSucceeds (g : PortNo) (o : KeyOrder) (s : State) : State :=
  match o with
  | .unkey k => s.modRack g fun e => e.owe k false
  | .key k _ =>
    match s.racks[g].slots[k].occupant with
    | .empty | .unregistered => s
    | .receiver r =>
      match s.receivers[r].data with
      | none => s
      | some d => if d.state = .keying then keySuccess r d s else s

/-- The kind of an order in KEY_FAILED: 1 for a KEY, 2 for an UNKEY (R132). -/
def KeyOrder.kind : KeyOrder → Nat
  | .key .. => 1
  | .unkey _ => 2

/-- The failure of the order that was in flight: the receiver in its slot becomes FAULTY, with KEY_FAILED
(R123). -/
def orderFails (g : PortNo) (o : KeyOrder) (cause : Nat) (s : State) : State :=
  match s.racks[g].slots[o.slot].occupant with
  | .empty | .unregistered => s
  | .receiver r =>
    match s.receivers[r].data with
    | none => s
    | some d => keyFailedNotice r d cause o.kind (faultReceiver g o.slot r s)

/-- The order in flight for a slot takes its outcome, `failure` being the cause when it failed; none in
flight for the slot: nothing (R143 cases 2 and 3). -/
def orderOutcome (g : PortNo) (k : RackSlot) (failure : Option Nat) (s : State) : State :=
  match s.racks[g].flying with
  | none => s
  | some o =>
    if o.slot = k then
      let s := s.modRack g Rack.finish
      match failure with
      | none => orderSucceeds g o s
      | some cause => orderFails g o cause s
    else s

/-- KEY_DONE and KEY_FAIL: the late outcome of an abandoned order first (R143). -/
def keyReport (g : PortNo) (k : RackSlot) (failure : Option Nat) (s : State) : State :=
  if s.racks[g].abandoned.contains k then
    s.modRack g fun e => { e with abandoned := e.abandoned.erase k }
  else orderOutcome g k failure s

/-- The key deadline expires: sent again, or failed with cause 2 (R142). -/
def keyExpiry (g : PortNo) (s : State) : State :=
  let e := s.racks[g]
  match e.flying with
  | none => s
  | some o =>
    if s.due e.keyDeadline then
      if e.attempts < s.limits.keyRetries then sendOrder g o (e.attempts + 1) s
      else orderOutcome g o.slot (some 2) s
    else s

/-! ### Battery and charge (R139) -/

/-- A receiver's new battery level takes effect on state, pool, charge queue and grants (R139). -/
def batteryEffect (g : PortNo) (r : RecNo) (s : State) : State :=
  match s.receivers[r].data with
  | none => s
  | some d =>
    if d.state = .faulty then s
    else
      let s :=
        if d.state = .dockedCharging ∧ s.limits.readyThreshold ≤ d.battery then
          enterPool r (s.changeReceiver r fun d => { d with state := .dockedReady })
        else poolMove r s
      issueGrants g (chargeSettle g r s)

/-- A battery level reported for a receiver in a slot, clamped to 100 (R139). -/
def batteryUpdate (g : PortNo) (r : RecNo) (level : Nat) (s : State) : State :=
  batteryEffect g r (s.noteReceiver r fun d => { d with battery := min 100 level })

/-- BATTERY for a slot (R139). -/
def batteryReport (g : PortNo) (k : RackSlot) (level : Nat) (s : State) : State :=
  match s.racks[g].slots[k].occupant with
  | .empty | .unregistered => s
  | .receiver r => batteryUpdate g r level s

/-- A receiver charged full: battery 100, no grant, no charge queue place; DOCKED_CHARGING becomes
DOCKED_READY, and a pool member takes the place of its level (R139; log entry 21). -/
def chargeFull (g : PortNo) (r : RecNo) (d : ReceiverData) (s : State) : State :=
  let s := s.noteReceiver r fun d => { d with battery := 100 }
  if d.state = .faulty then s
  else
    let s := chargeLeave g r (freeGrant g r s)
    let s := if d.state = .dockedCharging then
        enterPool r (s.changeReceiver r fun d => { d with state := .dockedReady })
      else poolMove r s
    issueGrants g s

/-- CHARGE_DONE for a slot (R139). -/
def chargeReport (g : PortNo) (k : RackSlot) (s : State) : State :=
  match s.racks[g].slots[k].occupant with
  | .empty | .unregistered => s
  | .receiver r =>
    match s.receivers[r].data with
    | none => s
    | some d => chargeFull g r d s

/-! ### Docking (R127 to R129) -/

/-- The record that holds a receiver id (R114: at most one). -/
def recordOf (s : State) (id : BitVec 24) : Option RecNo :=
  (fins 320).find? fun r => s.receivers[r].data.map (·.id) == some id

/-- The lowest-numbered free record (R114). -/
def freeRecord (s : State) : Option RecNo := (fins 320).find? fun r => s.receivers[r].data.isNone

/-- A receiver id: 0 and 16777215 are none (R129). -/
def validReceiverId (id : BitVec 24) : Bool := id != 0 && id != 0xFFFFFF

/-- A receiver placed in a slot (R128 steps 1 to 5). -/
def placeReceiver (g : PortNo) (k : RackSlot) (r : RecNo) (level : Nat) (s : State) : State :=
  let battery := min 100 level
  let state := byBattery s battery
  let s := s.modSlot g k fun e => { e with occupant := .receiver r }
  let s := s.changeReceiver r fun d =>
    { d with state := state, place := some (g, k), dockStamp := some s.clock, battery := battery
             charging := false, keyedProgram := none, outfit := none, issueStamp := none
             loanDeadline := none, unconfirmed := false }
  let s := issueGrants g (chargeSettle g r s)
  if state = .dockedReady then enterPool r s else s

/-- A known receiver docked: one that was out on a program is counted as returned and owes an UNKEY
(R128). -/
def dockKnown (g : PortNo) (k : RackSlot) (r : RecNo) (d : ReceiverData) (level : Nat) (s : State) :
    State :=
  let s :=
    if d.state = .issued ∨ d.state = .overdue then
      let s := match d.keyedProgram with
        | none => s
        | some p => countReturn p s
      s.modRack g (Rack.placeUnkey k)
    else s
  placeReceiver g k r level s

/-- An unknown receiver docked: the lowest free record takes it, or the slot holds an unregistered
occupant, with FLEET_FULL for a valid id (R129). -/
def dockUnknown (g : PortNo) (k : RackSlot) (id : BitVec 24) (level : Nat) (s : State) : State :=
  let unregistered := s.modSlot g k fun e => { e with occupant := .unregistered }
  if validReceiverId id then
    match freeRecord s with
    | some r =>
      let d : ReceiverData :=
        { id := id, state := .stray, place := none, dockStamp := none, battery := 0, charging := false
          keyedProgram := none, outfit := none, issueStamp := none, loanDeadline := none
          unconfirmed := false }
      placeReceiver g k r level (s.modReceiver r fun x => { x with data := some d })
    | none =>
      queueNotice .fleetFull (subjectOf g.val) (subjectOf k.val) (id.setWidth 16) unregistered
  else unregistered

/-- The receiver undocked from where it is recorded docked (R127 case 3). -/
def undockElsewhere (id : BitVec 24) (s : State) : State :=
  match recordOf s id with
  | none => s
  | some r =>
    match placeOf s r with
    | none => s
    | some (g, k) => undockReceiver g k r s

/-- The receiver looked up and docked (R127, end). -/
def dockFound (g : PortNo) (k : RackSlot) (id : BitVec 24) (level : Nat) (s : State) : State :=
  match recordOf s id with
  | none => dockUnknown g k id level s
  | some r =>
    match s.receivers[r].data with
    | none => s
    | some d => dockKnown g k r d level s

/-- The slot holds the receiver that a DOCK names (R127 case 1). -/
def alreadyThere (s : State) (g : PortNo) (k : RackSlot) (id : BitVec 24) : Option RecNo :=
  match s.racks[g].slots[k].occupant with
  | .empty | .unregistered => none
  | .receiver r => if s.receivers[r].data.map (·.id) = some id then some r else none

/-- DOCK (R127). -/
def dockReport (g : PortNo) (k : RackSlot) (id : BitVec 24) (level : Nat) (s : State) : State :=
  match alreadyThere s g k id with
  | some r => batteryUpdate g r level (s.noteReceiver r fun d => { d with unconfirmed := false })
  | none => dockFound g k id level (undockElsewhere id (undockSlot g k s))

/-! ### Cancelled orders and closed tours (R124, R131) -/

/-- The receiver's KEY is in flight at its rack. -/
def keyFlying (s : State) (place : Option (PortNo × RackSlot)) : Bool :=
  match place with
  | none => false
  | some (g, k) =>
    match s.racks[g].flying with
    | some (.key k' _) => k' == k
    | _ => false

/-- A receiver of a cancelled order whose KEY is in flight keeps KEYING without an order (R124 step 2). -/
def cancelFlying (n : BitVec 16) (r : RecNo) (s : State) : State :=
  match s.receivers[r].data with
  | none => s
  | some d =>
    if d.state = .keying ∧ d.outfit = some n ∧ keyFlying s d.place = true then
      s.noteReceiver r fun d => { d with outfit := none }
    else s

/-- The slot's waiting KEY removed from its rack's key queue (R124 step 3). -/
def dropWaitingKey (place : Option (PortNo × RackSlot)) (s : State) : State :=
  match place with
  | none => s
  | some (g, k) => s.modRack g fun e =>
    e.withWaiting (e.waiting.filter fun o =>
      match o with
      | .key k' _ => !(k' == k)
      | .unkey _ => true)

/-- A receiver of a cancelled order whose KEY waits is DOCKED_READY again (R124 step 3). -/
def cancelWaiting (n : BitVec 16) (r : RecNo) (s : State) : State :=
  match s.receivers[r].data with
  | none => s
  | some d =>
    if d.state = .keying ∧ d.outfit = some n then
      enterPool r ((dropWaitingKey d.place s).changeReceiver r fun d =>
        { d with state := .dockedReady, keyedProgram := none, outfit := none })
    else s

/-- The receivers KEYING for an order whose KEY is in flight. -/
def flyingFor (s : State) (n : BitVec 16) : Nat :=
  ((fins 320).filter fun r =>
    match s.receivers[r].data with
    | none => false
    | some d => d.state == .keying && d.outfit == some n && keyFlying s d.place).length

/-- An order cancelled (R124). -/
def cancelOrder (n : BitVec 16) (s : State) : State :=
  let s := { s with outfits := s.outfits.filter fun o => !(o.number == n) }
  let s := forEach (fins 320) (cancelFlying n) s
  forEach (fins 320) (cancelWaiting n) s

/-- A KEYED receiver of a closing tour is unkeyed (R131 step 2). -/
def closeKeyed (t : TourNo) (r : RecNo) (s : State) : State :=
  match s.receivers[r].data with
  | none => s
  | some d =>
    match d.state, d.keyedProgram with
    | .keyed, some p =>
      if tourOf p = t then
        let state := byBattery s d.battery
        let s := s.changeReceiver r fun d => { d with state := state, keyedProgram := none }
        let s := uncountKeyed p s
        let s := match d.place with
          | none => s
          | some (g, k) => s.modRack g (Rack.placeUnkey k)
        if state = .dockedReady then enterPool r s else s
      else s
    | _, _ => s

/-- An ISSUED receiver of a closing tour is OVERDUE, without a notice (R131 step 3). -/
def closeIssued (t : TourNo) (r : RecNo) (s : State) : State :=
  match s.receivers[r].data with
  | none => s
  | some d =>
    if d.state = .issued ∧ d.keyedProgram.map tourOf = some t then
      s.changeReceiver r fun d => { d with state := .overdue, loanDeadline := none }
    else s

/-- The closure of a tour at the fleet unit (R131). Its orders are cancelled one by one, and the selection after
each serves every order then queued, a younger one of the same tour too (DESIGN CHOICE, log entry 38). -/
def closeFleet (t : TourNo) (s : State) : State :=
  let s := forEach ((s.outfits.filter fun o => o.tour == t).map (·.number)) cancelOrder s
  let s := forEach (fins 320) (closeKeyed t) s
  forEach (fins 320) (closeIssued t) s

/-- The loan deadline of an ISSUED receiver expires (R126). -/
def loanExpiry (r : RecNo) (s : State) : State :=
  match s.receivers[r].data with
  | none => s
  | some d =>
    if d.state = .issued ∧ s.due d.loanDeadline = true then
      let out := (s.clock - d.issueStamp.getD s.clock).toNat / 60000
      queueNotice .receiverOverdue (subjectOf r.val)
        (d.keyedProgram.map fun p => BitVec.ofNat 16 p.val) (BitVec.ofNat 16 out)
        (s.changeReceiver r fun d => { d with state := .overdue, loanDeadline := none })
    else s

/-! ### Offline and inventory (R145 to R147) -/

/-- The rack's own part of going offline (R145 steps 1 to 3). -/
def Rack.dark (e : Rack) : Rack :=
  { e with online := false, inventory := false, inventoryDeadline := none, grants := []
           chargeQueue := [], keyQueue := [], inFlight := false, attempts := 0, keyDeadline := none
           abandoned := [] }

/-- A KEYING receiver returned to DOCKED_READY, its slot owing an UNKEY (R114, R134, R145 step 4). -/
def returnKeying (r : RecNo) (s : State) : State :=
  match s.receivers[r].data with
  | none => s
  | some d =>
    if d.state = .keying then
      let s := s.changeReceiver r fun d =>
        { d with state := .dockedReady, keyedProgram := none, outfit := none }
      match d.place with
      | none => s
      | some (g, k) => s.modRack g fun e => e.owe k true
    else s

/-- A KEYING receiver of a rack that goes offline, with its order's S (R145 step 4). -/
def loseKeying (r : RecNo) (s : State) : State :=
  match s.receivers[r].data with
  | none => s
  | some d =>
    if d.state = .keying then modOrderOf d.outfit OutfitOrder.lostOne (returnKeying r s) else s

/-- A rack goes offline (R145). -/
def rackOffline (g : PortNo) (s : State) : State :=
  let records := recordsIn s g
  let s := s.modRack g Rack.dark
  let s := forEach records (fun r s =>
    (poolLeave r s).noteReceiver r fun d => { d with charging := false }) s
  let s := runSelection (forEach records loseKeying s)
  queueNotice .rackOffline (subjectOf g.val) none
    (BitVec.ofNat 16 (slotRecords s.racks[g]).length) s

/-- An INVENTORY order sent, with its deadline (R146). -/
def sendInventory (g : PortNo) (s : State) : State :=
  (handFrame g (.order .inventory) s).modRack g fun e =>
    { e with inventoryDeadline := some (s.after Config.inventoryDeadlineMs) }

/-- A slot without its unregistered occupant (R146 step 2). -/
def SlotEntry.cleared (e : SlotEntry) : SlotEntry :=
  match e.occupant with
  | .unregistered => SlotEntry.initial
  | .empty | .receiver _ => e

/-- An inventory starts (R146). -/
def startInventory (g : PortNo) (s : State) : State :=
  let s := forEach (recordsIn s g) (fun r s =>
    s.noteReceiver r fun d => { d with unconfirmed := true }) s
  sendInventory g (s.modRack g fun e =>
    { e with slots := mapTable (fun _ x => x.cleared) e.slots, inventory := true })

/-- The inventory deadline expires: the order is sent again (R146). -/
def inventoryExpiry (g : PortNo) (s : State) : State :=
  if s.racks[g].inventory = true ∧ s.due s.racks[g].inventoryDeadline = true then sendInventory g s
  else s

/-- A receiver still unconfirmed at the end of an inventory is undocked (R147 step 1). -/
def reconcile (g : PortNo) (k : RackSlot) (s : State) : State :=
  match s.racks[g].slots[k].occupant with
  | .empty | .unregistered => s
  | .receiver r =>
    if (s.receivers[r].data.map (·.unconfirmed)).getD false then undockReceiver g k r s else s

/-- The UNKEY owed for a slot (R147 step 2). -/
def placeOwed (g : PortNo) (k : RackSlot) (s : State) : State :=
  match s.racks[g].slots[k].occupant with
  | .empty | .unregistered => s
  | .receiver r =>
    match s.receivers[r].data with
    | none => s
    | some d =>
      if (d.state = .dockedCharging ∨ d.state = .dockedReady) ∧ s.racks[g].slots[k].unkeyOwed = true then
        s.modRack g (Rack.placeUnkey k)
      else s

/-- A DOCKED_READY receiver of a rack that came online (R147 step 5). -/
def enterIfReady (r : RecNo) (s : State) : State :=
  if s.receivers[r].data.map (·.state) = some .dockedReady then enterPool r s else s

/-- INVENTORY_END (R147 steps 1 to 5; step 6 is the sending at the event's end). -/
def inventoryDone (g : PortNo) (s : State) : State :=
  if s.racks[g].inventory then
    let s := forEach (fins 40) (reconcile g) s
    let s := forEach (fins 40) (placeOwed g) s
    let s := s.modRack g fun e =>
      { e with inventory := false, inventoryDeadline := none, online := true }
    let s := issueGrants g (chargeAll g s)
    forEach (recordsIn s g) enterIfReady s
  else s

/-! ### The meanings of the rack reports -/

/-- A rack report taken: its payload when a RACK port takes the frame and the report is of this kind
(R167, R178), and the sendings at the event's end (R142). -/
def rackReport (p : PortNo) (frame : List Byte) (code : Nat) (f : List Byte → State → State)
    (s : State) : Host.Outcome State Fault Refusal :=
  s.running fun s =>
    match receive p .report frame s with
    | none => s
    | some payload => if byteAt payload 0 = code then sendKeys (f payload s) else s

/-- The slot a report names; above 39 the report is discarded (R178). -/
def withSlot (f : RackSlot → State → State) (payload : List Byte) (s : State) : State :=
  match toFin 40 (byteAt payload 1) with
  | none => s
  | some k => f k s

/-- DOCK (R127). -/
def execDock (p : PortNo) (frame : List Byte) (s : State) : Host.Outcome State Fault Refusal :=
  rackReport p frame 1 (fun payload =>
    withSlot (fun k => dockReport p k (BitVec.ofNat 24 (tripleAt payload 2)) (byteAt payload 5))
      payload) s

/-- UNDOCK (R125). -/
def execUndock (p : PortNo) (frame : List Byte) (s : State) : Host.Outcome State Fault Refusal :=
  rackReport p frame 2 (withSlot (undockSlot p)) s

/-- BATTERY (R139). -/
def execBattery (p : PortNo) (frame : List Byte) (s : State) : Host.Outcome State Fault Refusal :=
  rackReport p frame 3 (fun payload =>
    withSlot (fun k => batteryReport p k (byteAt payload 5)) payload) s

/-- CHARGE_DONE (R139). -/
def execChargeDone (p : PortNo) (frame : List Byte) (s : State) : Host.Outcome State Fault Refusal :=
  rackReport p frame 4 (withSlot (chargeReport p)) s

/-- KEY_DONE (R143). -/
def execKeyDone (p : PortNo) (frame : List Byte) (s : State) : Host.Outcome State Fault Refusal :=
  rackReport p frame 5 (withSlot fun k => keyReport p k none) s

/-- KEY_FAIL (R143). -/
def execKeyFail (p : PortNo) (frame : List Byte) (s : State) : Host.Outcome State Fault Refusal :=
  rackReport p frame 6 (withSlot fun k => keyReport p k (some 1)) s

/-- SLOT_FAULT (R144). -/
def execSlotFault (p : PortNo) (frame : List Byte) (s : State) : Host.Outcome State Fault Refusal :=
  rackReport p frame 7 (withSlot (slotFaultReport p)) s

/-- INVENTORY_END (R147). -/
def execInventoryEnd (p : PortNo) (frame : List Byte) (s : State) : Host.Outcome State Fault Refusal :=
  rackReport p frame 8 (fun _ => inventoryDone p) s

/-! ### The meanings of the fleet's expiries -/

/-- LOAN_DEADLINE_EXPIRY (R126). -/
def execLoanDeadlineExpiry (r : RecNo) (s : State) : Host.Outcome State Fault Refusal :=
  s.running (loanExpiry r)

/-- KEY_DEADLINE_EXPIRY (R142). -/
def execKeyDeadlineExpiry (g : PortNo) (s : State) : Host.Outcome State Fault Refusal :=
  s.running fun s => sendKeys (keyExpiry g s)

/-- INVENTORY_DEADLINE_EXPIRY (R146). -/
def execInventoryDeadlineExpiry (g : PortNo) (s : State) : Host.Outcome State Fault Refusal :=
  s.running (inventoryExpiry g)

end Sys2Proof.Machine
end

