-- ==== Sys2Proof/Machine/Announcements.lean ====
section
/-! DEFINITION. The announcement table (chapter 4): start, renewal, stop, what a change of the
announcer's state does, and the meanings of END_ and PENDING_DEADLINE_EXPIRY. -/

namespace Sys2Proof.Machine

/-- The record that holds an announcer slot (R60: at most one). -/
def announcementOf (s : State) (i : SourceSlot) : Option (AnnNo × Announcement) :=
  (fins 4).findSome? fun n =>
    match s.announcements[n] with
    | none => none
    | some a => if a.slot = i then some (n, a) else none

/-- The lowest-numbered free record (R63). -/
def freeAnnouncement (s : State) : Option AnnNo := (fins 4).find? fun n => s.announcements[n].isNone

/-- The operands of an ANNOUNCE with the start flag, the duration as clamped (R61). -/
structure AnnounceOperands where
  slot      : SourceSlot
  zones     : BitVec 8
  priority  : Fin 4
  levelStep : GainStep
  duckStep  : GainStep
  duration  : Nat

/-- The duration clamped: 0 is taken as 1, above 600 as 600 (R61). -/
def clampDuration (d : Nat) : Nat := max 1 (min 600 d)

/-- A record made ON: start stamp and end deadline set, no pending deadline (R63, R66). -/
def announcementOn (s : State) (a : Announcement) : Announcement :=
  { a with state := .on, startStamp := some s.clock
           endDeadline := some (s.after (a.duration * 1000)), pendingDeadline := none }

/-- A new announcement, ON when its announcer is LIVE and PENDING otherwise (R63). -/
def newAnnouncement (s : State) (o : AnnounceOperands) : Announcement :=
  let a : Announcement :=
    { slot := o.slot, zones := o.zones, priority := o.priority, levelStep := o.levelStep
      duckStep := o.duckStep, duration := o.duration, state := .waiting, startStamp := none
      endDeadline := none, pendingDeadline := some (s.after (s.limits.pendingS * 1000)) }
  if s.sources[o.slot].state = .live then announcementOn s a else a

/-- The record renewed (R64). -/
def renewedAnnouncement (s : State) (o : AnnounceOperands) (a : Announcement) : Announcement :=
  { a with zones := o.zones, priority := o.priority, levelStep := o.levelStep
           duckStep := o.duckStep, duration := o.duration
           endDeadline := match a.state with
             | .on => some (s.after (o.duration * 1000))
             | .waiting => a.endDeadline }

/-- The overlays chosen again when an announcement that is ON was set (R63, R64, R66). -/
def putAnnouncement (n : AnnNo) (a : Announcement) (s : State) : State :=
  let s := s.setAnnouncement n (some a)
  if a.state = .on then chooseAllOverlays s else s

/-- Create an announcement in a free record (R63). -/
def createAnnouncement (n : AnnNo) (o : AnnounceOperands) (s : State) : State :=
  putAnnouncement n (newAnnouncement s o) s

/-- Renew the announcement a record holds (R64). -/
def renewAnnouncement (n : AnnNo) (o : AnnounceOperands) (a : Announcement) (s : State) : State :=
  putAnnouncement n (renewedAnnouncement s o a) s

/-- The overlays chosen again for an announcement that ends in ON: it applies to no program from here on, and
while its programs take another overlay or none, in ascending number, the announcer's store applies its removal
rule as each leaves its reader list (R68, R70, R14). -/
def withdrawAnnouncement (n : AnnNo) (a : Announcement) (s : State) : State :=
  chooseAllOverlays (s.setAnnouncement n (some { a with state := .waiting }))

/-- End the announcement of a record: the overlays are chosen again when it was ON, and it is freed (R68). -/
def endAnnouncement (n : AnnNo) (s : State) : State :=
  match s.announcements[n] with
  | none => s
  | some a =>
    (if a.state = .on then withdrawAnnouncement n a s else s).setAnnouncement n none

/-- A source became LIVE: each PENDING record that names it becomes ON (R66). -/
def announcerLive (i : SourceSlot) (s : State) : State :=
  forEach (fins 4) (fun n s =>
    match s.announcements[n] with
    | none => s
    | some a =>
      if a.slot = i ∧ a.state = .waiting then putAnnouncement n (announcementOn s a) s else s) s

/-- A source left LIVE: each ON record that names it ends (R68). -/
def announcerLost (i : SourceSlot) (s : State) : State :=
  forEach (fins 4) (fun n s =>
    match s.announcements[n] with
    | none => s
    | some a => if a.slot = i ∧ a.state = .on then endAnnouncement n s else s) s

/-- The end deadline of an ON announcement expires (R68). -/
def endExpiry (n : AnnNo) (s : State) : State :=
  match s.announcements[n] with
  | none => s
  | some a => if a.state = .on ∧ s.due a.endDeadline = true then endAnnouncement n s else s

/-- The pending deadline of a PENDING announcement expires: the record is freed with an
ANNOUNCE_DROPPED notice, and no overlay is chosen (R67). -/
def pendingExpiry (n : AnnNo) (s : State) : State :=
  match s.announcements[n] with
  | none => s
  | some a =>
    if a.state = .waiting ∧ s.due a.pendingDeadline = true then
      queueNotice .announceDropped (subjectOf a.slot.val) (subjectOf n.val) (a.zones.setWidth 16)
        (s.setAnnouncement n none)
    else s

/-- END_DEADLINE_EXPIRY (R68). -/
def execEndDeadlineExpiry (n : AnnNo) (s : State) : Host.Outcome State Fault Refusal :=
  s.running (endExpiry n)

/-- PENDING_DEADLINE_EXPIRY (R67). -/
def execPendingDeadlineExpiry (n : AnnNo) (s : State) : Host.Outcome State Fault Refusal :=
  s.running (pendingExpiry n)

end Sys2Proof.Machine
end

