-- ==== Sys2Proof/Machine/Hearing.lean ====
section
/-! DEFINITION. The hearing table and the gallery sets (chapter 5): observations, smoothing, the window
comparator, joins and leaves, freezing and thawing, removal; and the meanings of SILENCE_ and
LEAVE_DEADLINE_EXPIRY. -/

namespace Sys2Proof.Machine

/-! ### The records -/

/-- The record of a guide slot and a gallery port (R72: at most one). -/
def hearingOf (s : State) (i : SourceSlot) (g : PortNo) : Option HearingRecord :=
  s.hearing.find? fun r => r.slot == i && r.port == g

/-- The record of this key. -/
def isKey (i : SourceSlot) (g : PortNo) (r : HearingRecord) : Bool := r.slot == i && r.port == g

/-- Change the record of a key. -/
def modHearing (i : SourceSlot) (g : PortNo) (f : HearingRecord → HearingRecord) (s : State) : State :=
  { s with hearing := s.hearing.map fun r => if isKey i g r then f r else r }

/-- Remove the record of a key. -/
def dropHearing (i : SourceSlot) (g : PortNo) (s : State) : State :=
  { s with hearing := s.hearing.filter fun r => !isKey i g r }

/-- The order in which the table is kept: ascending guide slot, then gallery port. -/
def keyBefore (x y : HearingRecord) : Bool :=
  x.slot < y.slot || (x.slot == y.slot && x.port < y.port)

/-- The level of a record: floor(est8 / 8) (R75). -/
def HearingRecord.level (r : HearingRecord) : Nat := r.est8 / 8

/-- est8 after an observation: a quarter of the way, the fraction dropped toward zero (R75). -/
def smooth (est8 obs : Nat) : Nat :=
  ((est8 : Int) + ((obs : Int) * 8 - est8).tdiv 4).toNat

/-- The OPEN tour a guide slot serves (R72: at most one). -/
def servedTour (s : State) (i : SourceSlot) : Option TourNo :=
  (fins 24).find? fun t => s.tours[t].state == .opened && s.tours[t].guide == some i

/-! ### Joins and leaves (R80 to R84) -/

/-- The change codes of GUIDE_MOVED (R84). -/
inductive MoveCode where
  | joined | left | portLost

def MoveCode.value : MoveCode → Nat
  | .joined => 1 | .left => 2 | .portLost => 3

/-- A GUIDE_MOVED notice, with the number of members after the change (R84). -/
def guideMoved (t : TourNo) (g : PortNo) (code : MoveCode) (s : State) : State :=
  queueNotice .guideMoved (subjectOf t.val) (subjectOf g.val)
    (BitVec.ofNat 16 (16 * code.value + s.tours[t].gallerySet.length)) s

/-- The wanted programs of a tour, ascending. -/
def wantedPrograms (s : State) (t : TourNo) : List ProgNo :=
  (progsOf t).filter fun p => s.programs[p].wanted

/-- A gallery joins a tour's set, at the tail, and the join is handed on (R80, R82). -/
def joinGallery (t : TourNo) (g : PortNo) (s : State) : State :=
  let s := s.modTour t fun r => { r with gallerySet := r.gallerySet ++ [g] }
  let s := forEach (wantedPrograms s t) (fun p => demandArrival p g) s
  guideMoved t g .joined (chooseTourOverlays t s)

/-- A gallery leaves a tour's set, and the leave is handed on; a leave by port change hands no demand
end (R81, R82). -/
def leaveGallery (t : TourNo) (g : PortNo) (code : MoveCode) (s : State) : State :=
  let s := s.modTour t fun r => { r with gallerySet := r.gallerySet.filter fun x => !(x == g) }
  let s := match code with
    | .portLost => s
    | _ => forEach (wantedPrograms s t) (fun p => demandEnd p g) s
  guideMoved t g code (chooseTourOverlays t s)

/-- The tour's set has room and its guide is not frozen (R80). -/
def hasPlace (s : State) (t : TourNo) : Bool :=
  s.tours[t].gallerySet.length < Config.gallerySetSize &&
    match s.tours[t].guide with
    | none => false
    | some i => !s.guideFrozen[i]

/-- The candidates of a tour: IN records of its guide that are not members (R72). -/
def candidates (s : State) (t : TourNo) : List HearingRecord :=
  s.hearing.filter fun r =>
    s.tours[t].guide == some r.slot && r.comparator == .inside &&
      !s.tours[t].gallerySet.contains r.port

/-- The earlier IN stamp first, then the lower gallery port (R80). -/
def candidateBefore (x y : HearingRecord) : Bool :=
  match x.inStamp, y.inStamp with
  | some a, some b => if a = b then x.port < y.port else earlier a b
  | some _, none => true
  | none, some _ => false
  | none, none => x.port < y.port

/-- The head candidate joins, when there is a place (R80). -/
def offerOne (t : TourNo) (s : State) : State :=
  if s.tours[t].state = .opened ∧ hasPlace s t = true then
    match bestOf candidateBefore (candidates s t) with
    | none => s
    | some r => joinGallery t r.port s
  else s

/-- A place is offered: head candidates join while there is room (R80). A set holds at most three. -/
def offerPlace (t : TourNo) (s : State) : State := offerOne t (offerOne t (offerOne t s))

/-- A record of a guide became IN: its gallery joins at once if there is a place, else the record is a
candidate (R80). -/
def joinOrWait (i : SourceSlot) (g : PortNo) (s : State) : State :=
  match servedTour s i with
  | none => s
  | some t =>
    if hasPlace s t && !s.tours[t].gallerySet.contains g then joinGallery t g s else s

/-- A record of a guide became OUT: a member leaves, and a place is offered (R81). -/
def leaveIfMember (i : SourceSlot) (g : PortNo) (s : State) : State :=
  match servedTour s i with
  | none => s
  | some t =>
    if s.tours[t].gallerySet.contains g then offerPlace t (leaveGallery t g .left s) else s

/-! ### The window comparator (R78, R79) -/

/-- A record becomes OUT (R78, R79). -/
def becomeOut (i : SourceSlot) (g : PortNo) (s : State) : State :=
  leaveIfMember i g (modHearing i g (fun r =>
    { r with comparator := .out, inStamp := none, leaveDeadline := none }) s)

/-- The comparator of a record evaluated: at most one change of Table 5-4. A frozen record is not
evaluated (R78). -/
def evaluate (i : SourceSlot) (g : PortNo) (s : State) : State :=
  match hearingOf s i g with
  | none => s
  | some r =>
    if r.frozen then s else
    match r.comparator with
    | .out =>
      if s.limits.join ≤ r.level then
        joinOrWait i g (modHearing i g (fun r =>
          { r with comparator := .inside, inStamp := some s.clock }) s)
      else s
    | .inside =>
      if r.level < s.limits.leave then
        if s.limits.leaveHoldS = 0 then becomeOut i g s
        else modHearing i g (fun r =>
          { r with comparator := .leaving
                   leaveDeadline := some (s.after (s.limits.leaveHoldS * 1000)) }) s
      else s
    | .leaving =>
      if s.limits.leave ≤ r.level then
        joinOrWait i g (modHearing i g (fun r =>
          { r with comparator := .inside, leaveDeadline := none }) s)
      else s

/-! ### Observations (R73, R74) -/

/-- A new silence deadline (R76). -/
def silenceAfter (s : State) : Option Clock := some (s.after s.limits.silenceMs)

/-- The order in which OUT records make room: lowest est8, earliest silence deadline with a frozen
record's absent one first, lower slot, lower port (R74). -/
def evictBefore (x y : HearingRecord) : Bool :=
  if x.est8 ≠ y.est8 then x.est8 < y.est8
  else if x.silenceDeadline ≠ y.silenceDeadline then
    match x.silenceDeadline, y.silenceDeadline with
    | some a, some b => earlier a b
    | none, _ => true
    | some _, none => false
  else keyBefore x y

/-- The OUT record that is removed to make room (R74). -/
def evicted (s : State) : Option HearingRecord :=
  bestOf evictBefore (s.hearing.filter fun r => r.comparator == .out)

/-- A record created by an observation, and compared (R74). -/
def createHearing (i : SourceSlot) (g : PortNo) (obs : Nat) (s : State) : State :=
  let r : HearingRecord :=
    { slot := i, port := g, est8 := obs * 8, comparator := .out, inStamp := none
      silenceDeadline := silenceAfter s, leaveDeadline := none, frozen := false }
  evaluate i g { s with hearing := insertBefore keyBefore r s.hearing }

/-- An observation (R73): applied to the record of its key, or creating one, with an OUT record removed
when the table is full, or not tracked (R74). -/
def observe (i : SourceSlot) (g : PortNo) (level : Nat) (s : State) : State :=
  let obs := min 127 level
  match hearingOf s i g with
  | some _ =>
    evaluate i g (modHearing i g (fun r =>
      { r with est8 := smooth r.est8 obs, silenceDeadline := silenceAfter s }) s)
  | none =>
    if s.hearing.length < Config.hearingRecords then createHearing i g obs s
    else
      match evicted s with
      | none => s
      | some e => createHearing i g obs (dropHearing e.slot e.port s)

/-! ### Freezing and thawing (R85, R86) -/

/-- The records of a guide freeze, their deadlines suspended (R85). -/
def freezeGuide (i : SourceSlot) (s : State) : State :=
  { s with
    guideFrozen := s.guideFrozen.set i true
    hearing := s.hearing.map fun r =>
      if r.slot = i then { r with frozen := true, silenceDeadline := none, leaveDeadline := none }
      else r }

/-- The gallery ports of a guide's records, ascending. -/
def portsHearing (s : State) (i : SourceSlot) : List PortNo :=
  (s.hearing.filter fun r => r.slot == i).map (·.port)

/-- One record thaws; a LEAVING one starts its hold in full, or is OUT at once with a leave hold of 0
(R86 step 1). -/
def thawRecord (i : SourceSlot) (g : PortNo) (s : State) : State :=
  let leaving := match hearingOf s i g with
    | some r => r.comparator == .leaving
    | none => false
  let s := modHearing i g (fun r =>
    { r with frozen := false, silenceDeadline := silenceAfter s
             leaveDeadline := if leaving then some (s.after (s.limits.leaveHoldS * 1000)) else none }) s
  if leaving && s.limits.leaveHoldS == 0 then becomeOut i g s else s

/-- The guide's records thaw, are compared without joins, and then a place is offered (R86). The slot
stays frozen for joins until the offer. -/
def thawGuide (i : SourceSlot) (s : State) : State :=
  let s := forEach (portsHearing s i) (thawRecord i) s
  let s := forEach (portsHearing s i) (evaluate i) s
  let s := { s with guideFrozen := s.guideFrozen.set i false }
  match servedTour s i with
  | none => s
  | some t => offerPlace t s

/-! ### Removal (R87, R88) -/

/-- Every record of a slot removed (R87); the slot is no longer frozen (log entry 18). -/
def forgetGuide (i : SourceSlot) (s : State) : State :=
  { s with hearing := s.hearing.filter (fun r => !(r.slot == i))
           guideFrozen := s.guideFrozen.set i false }

/-- A GALLERY port is lost: its records are removed, the port leaves every set with change code 3, and
each tour that lost it is offered a place (R88). -/
def hearingLost (g : PortNo) (s : State) : State :=
  let losers := (fins 24).filter fun t => s.tours[t].gallerySet.contains g
  let s := { s with hearing := s.hearing.filter fun r => !(r.port == g) }
  let s := forEach losers (fun t => leaveGallery t g .portLost) s
  forEach losers offerPlace s

/-! ### Expiries -/

/-- The silence deadline of a record that is not frozen expires: an observation of 0, with est8 1 to 3
taken to 0; an OUT record at 0 is removed, any other is re-armed and compared (R76). -/
def silenceExpiry (i : SourceSlot) (g : PortNo) (s : State) : State :=
  match hearingOf s i g with
  | none => s
  | some r =>
    if r.frozen = false ∧ s.due r.silenceDeadline = true then
      let e := smooth r.est8 0
      let e := if e = r.est8 ∧ e ≤ 3 then 0 else e
      if r.comparator = .out ∧ e = 0 then dropHearing i g s
      else evaluate i g (modHearing i g (fun r =>
        { r with est8 := e, silenceDeadline := silenceAfter s }) s)
    else s

/-- The leave deadline of a LEAVING record that is not frozen expires (R79). -/
def leaveExpiry (i : SourceSlot) (g : PortNo) (s : State) : State :=
  match hearingOf s i g with
  | none => s
  | some r =>
    if r.frozen = false ∧ r.comparator = .leaving ∧ s.due r.leaveDeadline = true then becomeOut i g s
    else s

/-- SILENCE_DEADLINE_EXPIRY (R76). -/
def execSilenceDeadlineExpiry (i : SourceSlot) (g : PortNo) (s : State) :
    Host.Outcome State Fault Refusal := s.running (silenceExpiry i g)

/-- LEAVE_DEADLINE_EXPIRY (R79). -/
def execLeaveDeadlineExpiry (i : SourceSlot) (g : PortNo) (s : State) :
    Host.Outcome State Fault Refusal := s.running (leaveExpiry i g)

end Sys2Proof.Machine
end

