-- ==== Sys2Proof/Machine/Ports.lean ====
section
/-! DEFINITION. Link ports (10.3, 10.4), the arrival of control requests (R149) and the sending of
notices (R164); and the meanings of LINK_UP, LINK_DOWN, FRAME_SENT, CONTROL_REQUEST and NOTICE_SEND. -/

namespace Sys2Proof.Machine

/-! ### Roles left and taken (R168, R169, R170) -/

/-- The waiting requests of a port removed, unanswered and without effect (R150). -/
def purgeRequests (p : PortNo) (s : State) : State :=
  { s with requests := s.requests.filter fun r => !(r.port == p) }

/-- A port's blocks told that it is lost in this role (R168). -/
def leaveRole (p : PortNo) (role : PortRole) (s : State) : State :=
  match role with
  | .unused => s
  | .gallery => carriersLost p (hearingLost p s)
  | .rack => rackOffline p s
  | .desk => purgeRequests p s

/-- A port's blocks told that it is UP in this role (R169). -/
def takeRole (p : PortNo) (role : PortRole) (s : State) : State :=
  match role with
  | .unused | .desk => s
  | .gallery => carriersGained p s
  | .rack => startInventory p s

/-- The lowest-numbered port with the DESK role. -/
def firstDesk (s : State) : Option PortNo := (fins 12).find? fun p => s.ports[p].role == .desk

/-- The notice port placed anew when the port it names has no DESK role (R156). -/
def placeNoticePort (s : State) : State :=
  if s.ports[s.limits.noticePort].role = .desk then s
  else
    match firstDesk s with
    | none => s
    | some p => { s with limits := { s.limits with noticePort := p } }

/-- A role change (R170): the old role left and the new one taken, each when the port is UP; the transmit
queue is kept, and the notice port is placed anew when it lost the DESK role. -/
def changeRole (p : PortNo) (new : PortRole) (s : State) : State :=
  let old := s.ports[p].role
  if new = old then s
  else
    let up := s.ports[p].link == .up
    let s := s.modPort p fun e => { e with role := new }
    let s := placeNoticePort (if up then leaveRole p old s else s)
    if up then takeRole p new s else s

/-! ### Link events -/

/-- The line reports link-up (R169). -/
def linkUp (p : PortNo) (s : State) : State :=
  let s := s.modPort p fun e => { e with link := .up, queue := [], line := none }
  takeRole p s.ports[p].role s

/-- The line reports link-down: link DOWN with its frames discarded, the hand-on, and the LINK_DOWN
notice (R168). -/
def linkDown (p : PortNo) (s : State) : State :=
  let role := s.ports[p].role
  let discarded := s.ports[p].queue.length
  let s := s.modPort p fun e => { e with link := .down, queue := [], line := none }
  let s := leaveRole p role s
  if role = .unused then s
  else queueNotice .linkDown (subjectOf p.val) (subjectOf role.code) (BitVec.ofNat 16 discarded) s

/-- LINK_UP (R169). Link events alternate: an UP port has none (10.3). -/
def execLinkUp (p : PortNo) (s : State) : Host.Outcome State Fault Refusal :=
  s.running fun s => if s.ports[p].link = .down then linkUp p s else s

/-- LINK_DOWN (R168). A DOWN port has none (10.3). The selection of R145 may leave key orders to send at
the event's end (R142). -/
def execLinkDown (p : PortNo) (s : State) : Host.Outcome State Fault Refusal :=
  s.running fun s =>
    if s.ports[p].link = .up then
      if s.ports[p].role = .rack then sendKeys (linkDown p s) else linkDown p s
    else s

/-- FRAME_SENT (R172): the line is free, and the next frame is taken. -/
def execFrameSent (p : PortNo) (s : State) : Host.Outcome State Fault Refusal :=
  s.running fun s =>
    match s.ports[p].line with
    | none => s
    | some _ => startLine p (s.modPort p fun e => { e with line := none })

/-! ### Control requests (R149, R150) -/

/-- A control response sent on the request's port: dropped and logged when the port has no DESK role, is
DOWN or has no room (R150; log entry 30). -/
def respond (p : PortNo) (f : TxFrame) (s : State) : State :=
  if s.ports[p].role = .desk then handFrame p f s else recordDrop p f s

/-- The tag of a request (Table 11-7). -/
def requestTag (payload : List Byte) : BitVec 16 := BitVec.ofNat 16 (wordAt payload 0)

/-- The request kind code of a request (Table 11-7). -/
def requestKind (payload : List Byte) : Byte := payload.getD 2 0

/-- A control request handed to the control engine: appended, or answered BUSY when 8 are queued
(R149). -/
def requestArrival (p : PortNo) (payload : List Byte) (s : State) : State :=
  if s.requests.length < Config.requestDepth then { s with requests := s.requests ++ [⟨p, payload⟩] }
  else respond p (.response (requestTag payload) (requestKind payload) .busy []) s

/-- CONTROL_REQUEST (R149, R167). -/
def execControlRequest (p : PortNo) (frame : List Byte) (s : State) :
    Host.Outcome State Fault Refusal :=
  s.running fun s =>
    match receive p .request frame s with
    | none => s
    | some payload => requestArrival p payload s

/-! ### Notices leaving (R164) -/

/-- The head notice can leave: the notice port is UP and has room for a non-audio frame (R164). -/
def noticeReady (s : State) : Bool :=
  !s.notices.isEmpty && s.ports[s.limits.noticePort].link == .up &&
    s.ports[s.limits.noticePort].queue.length < Config.transmitDepth

/-- The head notice sent to the notice port (R164). -/
def sendNotice (s : State) : State :=
  match s.notices with
  | [] => s
  | n :: rest =>
    if noticeReady s then handFrame s.limits.noticePort (.notice n) { s with notices := rest } else s

/-- NOTICE_SEND (R164). -/
def execNoticeSend (s : State) : Host.Outcome State Fault Refusal := s.running sendNotice

end Sys2Proof.Machine
end

