-- ==== Sys2Proof/Machine/ConfigMemory.lean ====
section
/-! DEFINITION. The configuration memory (10.7, 11.6): its bytes, the image of a configuration, the
judgement and loading of an image (R175, R180), and what a save has written when it ends (R176). -/

namespace Sys2Proof.Machine

/-! ### The bytes of the memory -/

/-- A byte of the memory; an unlisted address reads as `Config.unwrittenByte` (log entry 5). -/
def Memory.read (m : List Host.Cell) (a : Nat) : Byte :=
  match m.find? fun c => c.1 == a with
  | some c => c.2
  | none => Config.unwrittenByte

/-- A cell before a list, unless it holds what an unlisted address reads as. -/
def Memory.cons (a : Nat) (b : Byte) (m : List Host.Cell) : List Host.Cell :=
  if b = Config.unwrittenByte then m else (a, b) :: m

/-- One byte written, the canonical form kept. -/
def Memory.write : List Host.Cell → Nat → Byte → List Host.Cell
  | [], a, b => Memory.cons a b []
  | (x, v) :: rest, a, b =>
    if a < x then Memory.cons a b ((x, v) :: rest)
    else if a = x then Memory.cons a b rest
    else (x, v) :: Memory.write rest a b

/-- Bytes written from an address on, ascending. -/
def Memory.writeAll (m : List Host.Cell) (a : Nat) : List Byte → List Host.Cell
  | [] => m
  | b :: bs => Memory.writeAll (Memory.write m a b) (a + 1) bs

/-- The bytes from an address on. -/
def Memory.slice (m : List Host.Cell) (a n : Nat) : List Byte :=
  (List.range n).map fun i => Memory.read m (a + i)

/-- The canonical form: addresses rising and inside the memory, and no cell that reads as unlisted. -/
def Memory.wf : List Host.Cell → Bool
  | [] => true
  | (x, v) :: rest =>
    x < Config.memoryBytes && v != Config.unwrittenByte && rest.all (fun c => x < c.1) && Memory.wf rest

/-! ### The image (R180, Table 11-14) -/

/-- The marker, A5h 3Ch 16h 0Bh. -/
def imageMarker : BitVec 32 := 0xA53C160B

/-- The bytes of the five sections. -/
def sectionsLength : Nat := 428

/-- The bytes of an image. -/
def imageLength : Nat := 436

/-- The sum of bytes modulo 65536 (R180). -/
def byteSum (bs : List Byte) : Nat := (bs.foldl (fun n b => n + b.toNat) 0) % 65536

/-- The opening of a section: its code and content length. -/
def sectionOpening (code length : Nat) : List Byte := put8 code ++ put16 length

/-- The PORT section's content. -/
def portContent (s : State) : List Byte :=
  ((fins 12).map fun p => put8 s.ports[p].role.code ++ put8 s.racks[p].grantLimit).flatten

/-- The GAIN section's content. -/
def gainContent (s : State) : List Byte := ((fins 16).map fun i => put16 s.gains[i].value).flatten

/-- The LIMITS section's content. -/
def limitsContent (l : Limits) : List Byte :=
  put16 l.sourceLostMs ++ put8 l.mixSlackMs ++ put8 l.pendingS ++ put8 l.join ++ put8 l.leave ++
    put8 l.leaveHoldS ++ put16 l.silenceMs ++ put8 l.settleMs ++ put8 l.parkS ++
    put8 l.readyThreshold ++ put16 l.loanMin ++ put8 l.critical ++ put8 l.keyRetries ++
    put8 l.noticePort.val ++ put32 l.noticeMask.toNat

/-- The ZONE section's content. -/
def zoneContent (s : State) : List Byte :=
  ((fins 8).map fun z => put16 s.zones[z].members.toNat).flatten

/-- The SOURCE section's content. -/
def sourceContent (s : State) : List Byte :=
  ((fins 64).map fun i =>
    let r := s.sources[i]
    opt16 (r.id.map (·.toNat)) ++ put8 r.role.code ++ put8 r.gainStep.val ++ put8 (yesNo r.mute)).flatten

/-- The five sections, in their order. -/
def imageSections (s : State) : List Byte :=
  sectionOpening 1 24 ++ portContent s ++ (sectionOpening 2 32 ++ gainContent s) ++
    (sectionOpening 3 21 ++ limitsContent s.limits) ++ (sectionOpening 4 16 ++ zoneContent s) ++
    (sectionOpening 5 320 ++ sourceContent s)

/-- The image of the configuration: header and sections (R161, R180; taken as bytes at SAVE_CONFIG, log
entry 32). -/
def imageOf (s : State) : List Byte :=
  let body := imageSections s
  put32 imageMarker.toNat ++ put16 sectionsLength ++ put16 (byteSum body) ++ body

/-! ### Judgement (R175, R180) -/

/-- A section opens at this offset with this code and content length. -/
def opensWith (image : List Byte) (offset code length : Nat) : Bool :=
  byteAt image offset == code && wordAt image (offset + 1) == length

/-- The five section openings are those of Table 11-14. -/
def openingsOk (image : List Byte) : Bool :=
  opensWith image 8 1 24 && opensWith image 35 2 32 && opensWith image 70 3 21 &&
    opensWith image 94 4 16 && opensWith image 113 5 320

/-- The memory holds a valid image (R175, R180; the length: log entry 25). -/
def imageValid (m : List Host.Cell) : Bool :=
  let header := Memory.slice m 0 8
  let length := wordAt header 4
  longAt header 0 == imageMarker.toNat && sectionsLength ≤ length &&
    length + 8 ≤ Config.memoryBytes && openingsOk (Memory.slice m 0 imageLength) &&
    byteSum (Memory.slice m 8 length) == wordAt header 6

/-! ### Loading (R2, R49, R59, R134, R155, R166, R180) -/

/-- A byte of an image clamped to a field's range (R180). -/
def clampedByte (image : List Byte) (offset lo hi : Nat) : Nat := max lo (min hi (byteAt image offset))

/-- Two bytes of an image clamped to a field's range (R180). -/
def clampedWord (image : List Byte) (offset lo hi : Nat) : Nat := max lo (min hi (wordAt image offset))

/-- The role of a port in the PORT section; a code above 3 is UNUSED (R180). -/
def loadedRole (image : List Byte) (p : PortNo) : PortRole :=
  (portRoleOf (byteAt image (11 + 2 * p.val))).getD .unused

/-- Some port of the PORT section has the DESK role; else the section takes its default (R157). -/
def hasDesk (image : List Byte) : Bool := (fins 12).any fun p => loadedRole image p == .desk

/-- The ports as loaded (R166). -/
def loadedPorts (image : List Byte) : Vector Port 12 :=
  Vector.ofFn fun p =>
    if hasDesk image then { Port.initial p with role := loadedRole image p } else Port.initial p

/-- The racks as loaded: the grant limits (R134). -/
def loadedRacks (image : List Byte) : Vector Rack 12 :=
  Vector.ofFn fun p =>
    if hasDesk image then { Rack.initial with grantLimit := clampedByte image (12 + 2 * p.val) 1 40 }
    else Rack.initial

/-- The gain table as loaded (R49). -/
def loadedGains (image : List Byte) : Vector Gain 16 :=
  Vector.ofFn fun i => { value := clampedWord image (38 + 2 * i.val) 0 32767, generation := 0 }

/-- The thresholds as loaded, as join and leave: the defaults when join would not be above leave
(R155). -/
def loadedThresholds (image : List Byte) : Nat × Nat :=
  let join := clampedByte image 77 1 127
  let leave := clampedByte image 78 1 127
  if leave < join then (join, leave) else (Limits.initial.join, Limits.initial.leave)

/-- The limits table as loaded; the notice port is placed afterwards (R155, R156, R180). A notice port
above L11 is held as L0 until it is placed: see `loadImage`. -/
def loadedLimits (image : List Byte) : Limits :=
  { sourceLostMs := clampedWord image 73 100 2000
    mixSlackMs := clampedByte image 75 1 8
    pendingS := clampedByte image 76 1 30
    join := (loadedThresholds image).1
    leave := (loadedThresholds image).2
    leaveHoldS := clampedByte image 79 0 15
    silenceMs := clampedWord image 80 100 2000
    settleMs := clampedByte image 82 0 250
    parkS := clampedByte image 83 0 60
    readyThreshold := clampedByte image 84 50 100
    loanMin := clampedWord image 85 10 720
    critical := clampedByte image 87 5 40
    keyRetries := clampedByte image 88 0 7
    noticePort := (toFin 12 (byteAt image 89)).getD 0
    noticeMask := BitVec.ofNat 18 (longAt image 90)
    generation := 0 }

/-- The zones as loaded: a bit for a port above L11 is ignored (R180). -/
def loadedZones (image : List Byte) : Vector Zone 8 :=
  Vector.ofFn fun z => { members := BitVec.ofNat 12 (wordAt image (97 + 2 * z.val)), generation := 0 }

/-- The source id in a slot of the SOURCE section, before doubles: absent for FFFFh, for 0 and beside a
role code that names no role (R180). -/
def imageId (image : List Byte) (i : Nat) : Option (BitVec 16) :=
  let id := wordAt image (116 + 5 * i)
  if id = 0 ∨ id = 0xFFFF ∨ (sourceRoleOf (byteAt image (118 + 5 * i))).isNone = true then none
  else some (BitVec.ofNat 16 id)

/-- The source id a slot is loaded with: a lower slot with the same id takes it (R2). -/
def loadedId (image : List Byte) (i : SourceSlot) : Option (BitVec 16) :=
  if (List.range i.val).any fun j => imageId image j == imageId image i.val then none
  else imageId image i.val

/-- The role a code of the free value stands for. -/
def roleFromFree : Fin 3 → SourceRole
  | 0 => .guide
  | 1 => .interpreter
  | 2 => .announcer

/-- The role a slot is loaded with; free where the code names none (log entry 24). -/
def loadedSourceRole (image : List Byte) (i : SourceSlot) : SourceRole :=
  (sourceRoleOf (byteAt image (118 + 5 * i.val))).getD (roleFromFree (Config.unreadRole i.val))

/-- The source table as loaded (R2). -/
def loadedSources (image : List Byte) : Vector Source 64 :=
  Vector.ofFn fun i =>
    { Source.initial with
      id := loadedId image i
      role := loadedSourceRole image i
      gainStep := Fin.ofNat 16 (clampedByte image (119 + 5 * i.val) 0 15)
      mute := byteAt image (120 + 5 * i.val) != 0
      state := if (loadedId image i).isSome then .idle else .unused }

/-- The notice port placed after loading: a loaded port above L11 counts as one without the DESK role
(R156, R180). -/
def placeLoadedNoticePort (image : List Byte) (s : State) : State :=
  if byteAt image 89 < 12 then placeNoticePort s
  else
    match firstDesk s with
    | none => s
    | some p => { s with limits := { s.limits with noticePort := p } }

/-- A valid image loaded into a hub that stands at its power-on values (R175). -/
def loadImage (image : List Byte) (s : State) : State :=
  placeLoadedNoticePort image
    { s with configStatus := .loaded, ports := loadedPorts image, racks := loadedRacks image
             gains := loadedGains image, limits := loadedLimits image, zones := loadedZones image
             sources := loadedSources image }

/-- The defaults, when the image is not valid (R175). -/
def loadDefaults (s : State) : State :=
  { s with configStatus := .defaulted, ports := State.reset.ports, racks := State.reset.racks
           gains := State.reset.gains, limits := State.reset.limits, zones := State.reset.zones
           sources := State.reset.sources }

/-- The load is complete: HUB_STARTED is queued and the ports take their link events (R175). -/
def loadComplete (s : State) : State :=
  queueNotice .hubStarted (subjectOf s.configStatus.code) none 0 { s with phase := .running }

/-! ### What a save has written (R176; log entry 6) -/

/-- The value that stands in the marker's place from stage 1 on: not the marker, and otherwise free (log
entry 7). -/
def overwritten (n : Nat) : BitVec 32 :=
  if Config.overwrittenMarker n = imageMarker then ~~~imageMarker else Config.overwrittenMarker n

/-- The memory when power goes while a save of `image` has come to `offset` of a stage (R176): the marker is
overwritten from stage 1 on, stage 2 writes the sections and then length and checksum, stage 3 writes the marker and
reads back (log entry 6). -/
def saveProgress (image : List Byte) (free : Nat) (stage : SaveStage) (offset : Nat)
    (m : List Host.Cell) : List Host.Cell :=
  let blank := put32 (overwritten free).toNat
  match stage with
  | .marker => Memory.writeAll m 0 blank
  | .sections =>
    let m := Memory.writeAll m 0 blank
    if 8 ≤ offset then Memory.writeAll m 8 ((image.take offset).drop 8)
    else Memory.writeAll (Memory.writeAll m 8 (image.drop 8)) 4 ((image.take offset).drop 4)
  | .finish =>
    let m := Memory.writeAll (Memory.writeAll m 0 blank) 4 (image.drop 4)
    Memory.writeAll m 0 (image.take (min 4 offset))

/-- The bytes of an image whose save failed at this offset of stage 3: the marker, what was read back and found
right, and free bytes from there on (R176; log entry 37). -/
def unverifiedImage (image : List Byte) (free offset : Nat) : List Byte :=
  image.zipIdx.map fun x => if x.2 < max 4 offset then x.1 else Config.unverifiedByte free x.2

/-- The memory when a save of `image` fails for want of an acknowledgement: without the marker at stages 1 and
2, a marked image at stage 3 (R176; log entry 6). -/
def failProgress (image : List Byte) (free : Nat) (stage : SaveStage) (offset : Nat)
    (m : List Host.Cell) : List Host.Cell :=
  match stage with
  | .marker | .sections => saveProgress image free stage offset m
  | .finish => Memory.writeAll m 0 (unverifiedImage image free offset)

/-- The first offset at which two images differ. -/
def firstDifference (a b : List Byte) : Nat := (a.zip b).findIdx fun x => x.1 != x.2

/-- The number of a stage in CONFIG_SAVE_FAILED (R176). -/
def stageNumber : SaveStage → Nat
  | .marker => 1
  | .sections => 2
  | .finish => 3

/-- A save ends with CONFIG_SAVE_FAILED: stage, cause and offset (R176). -/
def saveFailed (stage cause offset : Nat) (s : State) : State :=
  queueNotice .configSaveFailed (subjectOf stage) (subjectOf cause) (BitVec.ofNat 16 offset)
    { s with saving := none }

/-- The write of a save ends and the image is read back as `back`: CONFIG_SAVED with length and checksum
when it matches the snapshot, CONFIG_SAVE_FAILED at stage 3 with cause 2 when it differs. The memory then holds
what was read back behind the snapshot's marker: a failure found at stage 3 leaves a marked image, also when the
difference lies in the marker (R176; log entry 8). -/
def saveComplete (image back : List Byte) (s : State) : State :=
  let s := { s with memory := Memory.writeAll s.memory 0 (image.take 4 ++ back.drop 4) }
  if back = image then
    queueNotice .configSaved (subjectOf imageLength) none (BitVec.ofNat 16 (wordAt image 6))
      { s with saving := none }
  else saveFailed 3 2 (firstDifference image back) s

/-- A save broken off at a point, its memory as `progress` gives it; each takes new free values (R176). -/
def breakSave (progress : List Byte → Nat → List Host.Cell → List Host.Cell) (s : State) : State :=
  match s.saving with
  | none => s
  | some image =>
    { s with memory := progress image s.freeCount s.memory, freeCount := s.freeCount + 1 }

/-- A save cut off by a loss of power: what it has written stays in the memory (R176). -/
def cutSave (stage : SaveStage) (offset : Nat) (s : State) : State :=
  breakSave (fun image free => saveProgress image free stage offset) s

/-- A save that gets no acknowledgement: what its failure leaves in the memory, and the notice with cause 1
(R176). -/
def unansweredSave (stage : SaveStage) (offset : Nat) (s : State) : State :=
  saveFailed (stageNumber stage) 1 offset
    (breakSave (fun image free => failProgress image free stage offset) s)

/-! ### Power -/

/-- The hub with its tables at their power-on values; the memory keeps its bytes, and the queue of
commands waits (R175; log entry 10). -/
def powerValues (phase : Phase) (s : State) : State :=
  { State.reset with
    phase := phase, memory := s.memory, freeCount := s.freeCount, pending := s.pending }

/-- POWER_ON (R175). A hub that has power is cut off first, a running save before its stage 3 (log
entry 9). -/
def execPowerOn (s : State) : Host.Outcome State Fault Refusal :=
  .next (powerValues .loading (cutSave .sections 8 s))

/-- CONFIG_LOAD_COMPLETE (R175, R180). -/
def execConfigLoadComplete (s : State) : Host.Outcome State Fault Refusal :=
  .next (if s.phase = .loading then
      if imageValid s.memory then loadComplete (loadImage (Memory.slice s.memory 0 imageLength) s)
      else loadComplete (loadDefaults s)
    else s)

/-- CONFIG_SAVE_COMPLETE (R176): only while a save is running. -/
def execConfigSaveComplete (back : List Byte) (s : State) : Host.Outcome State Fault Refusal :=
  s.running fun s =>
    match s.saving with
    | none => s
    | some image => if back.length = imageLength then saveComplete image back s else s

/-- ACK_TIMEOUT (R175, R176): in the load, the image is not valid; in a save, the save fails with cause 1
at this stage and offset. -/
def execAckTimeout (stage : SaveStage) (offset : Fin 436) (s : State) :
    Host.Outcome State Fault Refusal :=
  .next (match s.phase, s.saving with
    | .loading, _ => loadComplete (loadDefaults s)
    | .running, some _ => unansweredSave stage offset.val s
    | _, _ => s)

/-- POWER_LOSS (R176). -/
def execPowerLoss (stage : SaveStage) (offset : Fin 436) (s : State) :
    Host.Outcome State Fault Refusal :=
  .next (if s.phase = .off then s else powerValues .off (cutSave stage offset.val s))

end Sys2Proof.Machine
end

