-- ==== Sys2Proof/Machine/Operands.lean ====
section
/-! DEFINITION. The operands of control requests: request kinds (Table 11-8), table and field codes
(Table 11-9), the parsing of READ_ENTRY, WRITE_ENTRY and COND_WRITE with the checks of R151 step 1 that
concern form (R179), the conditions of Table 9-3 and the bytes of an entry result (11.4). -/

namespace Sys2Proof.Machine

/-! ### Tables (Table 9-2, Table 11-9) -/

/-- The addressable tables. -/
inductive Table where
  | source | tour | program | gain | zone | port | limits | receiver | rack
  deriving DecidableEq, Repr

/-- The table a code names. -/
def tableOf : Nat → Option Table
  | 1 => some .source | 2 => some .tour | 3 => some .program | 4 => some .gain | 5 => some .zone
  | 6 => some .port | 7 => some .limits | 8 => some .receiver | 9 => some .rack | _ => none

def Table.code : Table → Nat
  | .source => 1 | .tour => 2 | .program => 3 | .gain => 4 | .zone => 5 | .port => 6 | .limits => 7
  | .receiver => 8 | .rack => 9

/-- The entries of a table: its indices are 0 to one less (Table 9-2). -/
def Table.entries : Table → Nat
  | .source => 64 | .tour => 24 | .program => 96 | .gain => 16 | .zone => 8 | .port => 12
  | .limits => 1 | .receiver => 320 | .rack => 12

/-- The fields of a table: its field codes are 1 to this (Table 11-9). -/
def Table.fields : Table → Nat
  | .source => 10 | .tour => 6 | .program => 25 | .gain => 2 | .zone => 2 | .port => 8
  | .limits => 16 | .receiver => 14 | .rack => 13

/-- The fields that hold an ordered list (Table 11-9). -/
def Table.isList (t : Table) (field : Nat) : Bool :=
  match t with
  | .tour => field == 4
  | .port => field == 7 || field == 8
  | .rack => field == 5 || field == 6 || field == 7 || field == 11 || field == 12
  | .source | .program | .gain | .zone | .limits | .receiver => false

/-- The fields the tour desk may write (Table 9-2). -/
def Table.isWritable (t : Table) (field : Nat) : Bool :=
  match t with
  | .source => field ≤ 4
  | .tour => field == 3
  | .program => field ≤ 8
  | .gain | .zone | .port => field == 1
  | .limits => field ≤ 15
  | .receiver => false
  | .rack => field == 4

/-- A field code of the table. -/
def Table.hasField (t : Table) (field : Nat) : Bool := 1 ≤ field && field ≤ t.fields

/-- A field that may be a test field (R154). -/
def Table.mayTest (t : Table) (field : Nat) : Bool := t.hasField field && !t.isList field

/-! ### Entries as reported (11.4) -/

/-- A reported field: a single value, or absent; or a list of items, each a run of values. -/
inductive FieldValue where
  | single (v : Option Nat)
  | items (xs : List (List Nat))
  deriving DecidableEq, Repr

/-- The bytes of one field of an entry result: a field item, or a list with its item count. -/
def fieldBytes (code : Nat) : FieldValue → List Byte
  | .single v => put8 code ++ opt32 v
  | .items xs => put8 code ++ put16 xs.length ++ (xs.map fun x => (x.map put32).flatten).flatten

/-- The bytes of an entry result: table code, index, field count, every field in code order (11.4). -/
def entryBytes (t : Table) (index : Nat) (fields : List FieldValue) : List Byte :=
  put8 t.code ++ put16 index ++ put8 fields.length ++
    (fields.zipIdx.map fun x => fieldBytes (x.2 + 1) x.1).flatten

/-! ### Requests -/

/-- The header of a request is whole and its reserved byte is zero (R151 step 1, Table 11-7). -/
def headerOk (payload : List Byte) : Bool := 4 ≤ payload.length && byteAt payload 3 == 0

/-- The operands of a request. -/
def operandsOf (payload : List Byte) : List Byte := payload.drop 4

/-- A READ_ENTRY as parsed. -/
structure ReadRequest where
  table : Nat
  clear : Bool
  index : Nat

/-- The operands of READ_ENTRY; none when they are malformed whatever the table (Table 11-8). -/
def parseRead (payload : List Byte) : Option ReadRequest :=
  let o := operandsOf payload
  if headerOk payload = true ∧ o.length = 4 ∧ byteAt o 1 < 2 then
    some ⟨byteAt o 0, byteAt o 1 == 1, wordAt o 2⟩
  else none

/-- The field items at the end of a write, as field code and value (R179). -/
def parseItems : Nat → List Byte → List (Nat × Nat)
  | 0, _ => []
  | n + 1, o => (byteAt o 0, longAt o 1) :: parseItems n (o.drop 5)

/-- A write as parsed: table code, index and field items. -/
structure WriteRequest where
  table : Nat
  index : Nat
  items : List (Nat × Nat)

/-- The fields are named, and none twice (R151 step 1). -/
def itemsOk (items : List (Nat × Nat)) : Bool :=
  !items.isEmpty && (items.map (·.1)).Nodup

/-- The operands of WRITE_ENTRY; none when they are malformed whatever the table (Table 11-8). -/
def parseWrite (payload : List Byte) : Option WriteRequest :=
  let o := operandsOf payload
  let n := byteAt o 4
  let items := parseItems n (o.drop 5)
  if headerOk payload = true ∧ 5 ≤ o.length ∧ o.length = 5 + 5 * n ∧ byteAt o 1 = 0 ∧
      itemsOk items = true then
    some ⟨byteAt o 0, wordAt o 2, items⟩
  else none

/-- The conditions (Table 9-3). -/
inductive Condition where
  | eq | lt | le
  deriving DecidableEq, Repr

/-- The condition a code names (Table 11-8). -/
def conditionOf : Nat → Option Condition
  | 1 => some .eq | 2 => some .lt | 3 => some .le | _ => none

/-- A condition on a test field's value: an absent one is greater than every operand (R154). -/
def Condition.holds (c : Condition) (negate : Bool) (v : Option Nat) (x : Nat) : Bool :=
  let plain := match v with
    | none => false
    | some v =>
      match c with
      | .eq => v == x
      | .lt => v < x
      | .le => v ≤ x
  plain != negate

/-- The test of a COND_WRITE. -/
structure CondTest where
  field     : Nat
  condition : Condition
  negate    : Bool
  operand   : Nat

/-- The operands of COND_WRITE; none when they are malformed whatever the table (Table 11-8). -/
def parseCond (payload : List Byte) : Option (WriteRequest × CondTest) :=
  let o := operandsOf payload
  let n := byteAt o 11
  let items := parseItems n (o.drop 12)
  match conditionOf (byteAt o 5) with
  | none => none
  | some c =>
    if headerOk payload = true ∧ 12 ≤ o.length ∧ o.length = 12 + 5 * n ∧ byteAt o 1 = 0 ∧
        byteAt o 6 < 2 ∧ itemsOk items = true then
      some (⟨byteAt o 0, wordAt o 2, items⟩, ⟨byteAt o 4, c, byteAt o 6 == 1, longAt o 7⟩)
    else none

/-- The value written to a field, if the write names it. -/
def valueFor (items : List (Nat × Nat)) (field : Nat) : Option Nat :=
  (items.find? fun x => x.1 == field).map (·.2)

/-- A written value clamped to the nearest end of a range. -/
def clamp (lo hi v : Nat) : Nat := max lo (min hi v)

end Sys2Proof.Machine
end

