-- ==== Sys2Proof/Machine/Sources.lean ====
section
/-! DEFINITION. The source unit (chapter 1): voice frame arrival and classification, acceptance, loss,
and the hand-on of state changes; and the meanings of VOICE_FRAME and LOST_DEADLINE_EXPIRY. -/

namespace Sys2Proof.Machine

/-! ### The hand-on of state changes (R10, Table 1-5; the order of the blocks: log entry 15) -/

/-- A source became LIVE (R10). -/
def handOnLive (i : SourceSlot) (fromLost : Bool) (s : State) : State :=
  let s := programsFollow i (if fromLost then some false else none) s
  let s := announcerLive i s
  if fromLost && s.sources[i].role == .guide then thawGuide i s else s

/-- A source went from LIVE to LOST (R10). -/
def handOnLost (i : SourceSlot) (s : State) : State :=
  let s := programsFollow i (some true) s
  let s := announcerLost i s
  if s.sources[i].role = .guide then freezeGuide i s else s

/-- A source became IDLE or UNUSED by a tour desk write (R10). -/
def handOnWritten (i : SourceSlot) (s : State) : State := announcerLost i (programsFollow i none s)

/-! ### Classification (R4) -/

/-- The classes of a voice frame from a known source (Table 1-2). -/
inductive FrameClass where
  | accepted | duplicate | late
  deriving DecidableEq, Repr

/-- The class of a frame's sequence (R4). -/
def classify (r : Source) (seq : Seq) : FrameClass :=
  match r.newest with
  | none => .accepted
  | some n =>
    let d := seqDistance seq n
    if 1 ≤ d ∧ d ≤ 127 then .accepted
    else if d = 0 ∨ (takeBySequence r.store seq).isSome = true then .duplicate
    else .late

/-! ### Acceptance and loss (R5, R9) -/

/-- SOURCE_BACK and SOURCE_LOST carry the slot, the id and a sequence (R5, R9). -/
def sourceNotice (k : NoticeKind) (i : SourceSlot) (seq : Option Seq) (s : State) : State :=
  queueNotice k (subjectOf i.val) s.sources[i].id (BitVec.ofNat 16 ((seq.map (·.toNat)).getD 0xFFFF)) s

/-- An accepted frame taken in (R5). -/
def acceptFrame (i : SourceSlot) (seq : Seq) (samples : Block) (s : State) : State :=
  let was := s.sources[i].state
  let s := s.modSource i fun r =>
    { r with
      store := placeEntry ⟨seq, samples, s.clock⟩ r.store
      newest := some seq
      lostDeadline := some (s.after s.limits.sourceLostMs)
      state := .live }
  let s := if was = .lost then sourceNotice .sourceBack i (some seq) s else s
  let s := if was = .live then s else handOnLive i (was == .lost) s
  entryArrived i seq s

/-- The lost deadline of a LIVE source expires (R9). -/
def loseSource (i : SourceSlot) (s : State) : State :=
  let newest := s.sources[i].newest
  let s := emptyStore i (s.modSource i fun r => { r with state := .lost })
  let s := s.modSource i fun r => { r with lostDeadline := none }
  handOnLost i (sourceNotice .sourceLost i newest s)

/-- The lost deadline of a source expires (R9). -/
def lostExpiry (i : SourceSlot) (s : State) : State :=
  if s.sources[i].state = .live ∧ s.due s.sources[i].lostDeadline = true then loseSource i s else s

/-! ### Arrival (R3, R6, R7) -/

/-- The slot that holds a source id (R1: at most one). -/
def slotOf (s : State) (id : BitVec 16) : Option SourceSlot :=
  (fins 64).find? fun i => s.sources[i].id == some id

/-- A frame of a known source: accepted, or discarded from the store; and then its hearing observation,
when it came on a GALLERY port from a source that is GUIDE (R4 to R7; log entry 16). -/
def knownFrame (p : PortNo) (i : SourceSlot) (seq : Seq) (level : Nat) (samples : Block) (s : State) :
    State :=
  let heard := s.sources[i].role == .guide && s.ports[p].role == .gallery
  let s := match classify s.sources[i] seq with
    | .accepted => acceptFrame i seq samples s
    | .duplicate | .late => s
  if heard then observe i p level s else s

/-- A voice frame handed to the source unit (R3); `payload` is laid out as Table 11-2 gives. -/
def voiceArrival (p : PortNo) (payload : List Byte) (s : State) : State :=
  match sampleFormatOf (byteAt payload 4) with
  | none => s
  | some f =>
    let id := BitVec.ofNat 16 (wordAt payload 0)
    match slotOf s id with
    | none => if id = 0xFFFF then s else { s with lastUnknown := some id }
    | some i =>
      knownFrame p i (BitVec.ofNat 8 (byteAt payload 2)) (byteAt payload 3)
        (convertSamples f (payload.drop 5)) s

/-- VOICE_FRAME (R3, R167). -/
def execVoiceFrame (p : PortNo) (frame : List Byte) (s : State) : Host.Outcome State Fault Refusal :=
  s.running fun s =>
    match receive p .voice frame s with
    | none => s
    | some payload => voiceArrival p payload s

/-- LOST_DEADLINE_EXPIRY (R9). -/
def execLostDeadlineExpiry (i : SourceSlot) (s : State) : Host.Outcome State Fault Refusal :=
  s.running (lostExpiry i)

end Sys2Proof.Machine
end

