-- ==== Sys2Proof/Machine/Tables.lean ====
section
/-! DEFINITION. The entries of the nine addressable tables: what each reports (R17, R23, R35, R49, R59,
R113, R133, R148, R155, R166), which written values are refused RANGE, which writes are refused
REFUSED_STATE, and what a taken write does. -/

namespace Sys2Proof.Machine

/-! ### Reports -/

/-- A field that is always present. -/
def present (n : Nat) : FieldValue := .single (some n)

/-- A hub clock value that may be absent. -/
def clockField (c : Option Clock) : FieldValue := .single (c.map (·.toNat))

/-- A 16-bit value that may be absent. -/
def wordField (w : Option (BitVec 16)) : FieldValue := .single (w.map (·.toNat))

/-- A sequence that may be absent. -/
def seqField (c : Option Seq) : FieldValue := .single (c.map (·.toNat))

/-- A number of a table that may be absent. -/
def numberField {n : Nat} (x : Option (Fin n)) : FieldValue := .single (x.map (·.val))

/-- An absent value inside an item of a list (Table 11-10). -/
def itemNumber (x : Option Nat) : Nat := x.getD absent32

/-- A source record with its two store values (R17). -/
def sourceFields (r : Source) : List FieldValue :=
  [wordField r.id, present r.role.code, present r.gainStep.val, present (yesNo r.mute),
    present r.state.code, seqField r.newest,
    clockField (if r.state = .live then r.lostDeadline else none), present r.generation.toNat,
    present r.store.length, clockField ((takeNewest r.store).map (·.stamp))]

/-- A tour record (R23). -/
def tourFields (r : Tour) : List FieldValue :=
  [present r.state.code, numberField r.guide, present r.priority.val,
    .items (r.gallerySet.map fun g => [g.val]), present (yesNo r.guideFrozen),
    present r.generation.toNat]

/-- A program record (R35). -/
def programFields (r : Program) : List FieldValue :=
  [present r.language.val, present r.mode.code, numberField r.interpreter, numberField r.target,
    present r.voiceStep.val, present r.floorStep.val, present r.fallbackStep.val,
    present (yesNo r.carryAlways), present r.state.code, present r.pace.code, present r.cond.code,
    present r.keyed, present r.issued, present r.blockCount.toNat, clockField r.blockDeadline,
    seqField r.lead.cursor, seqField r.floor.cursor, seqField r.overlay.cursor,
    present r.lead.conceal.code, present r.floor.conceal.code, present r.overlay.conceal.code,
    present (yesNo r.clip), present r.clipCount, numberField r.overlayAnn,
    present r.generation.toNat]

/-- The carriers of a port, as items (Table 11-10). -/
def carrierItems (e : Gallery) : List (List Nat) :=
  (fins 8).map fun c =>
    let x := e.carriers[c]
    [c.val, x.state.code, itemNumber (x.program.map (·.val)),
      itemNumber (x.settleDeadline.map (·.toNat)), itemNumber (x.parkDeadline.map (·.toNat))]

/-- A port's entry, with its carrier fields (R166, R113). -/
def portFields (r : Port) (e : Gallery) : List FieldValue :=
  [present r.role.code, present r.link.code, present r.queue.length, present (audioCount r.queue),
    present r.generation.toNat, clockField e.mapRefresh, .items (carrierItems e),
    .items (e.waitList.map fun w => [w.program.val, w.stamp.toNat])]

/-- The limits table (R155). -/
def limitsFields (l : Limits) : List FieldValue :=
  [present l.sourceLostMs, present l.mixSlackMs, present l.pendingS, present l.join, present l.leave,
    present l.leaveHoldS, present l.silenceMs, present l.settleMs, present l.parkS,
    present l.readyThreshold, present l.loanMin, present l.critical, present l.keyRetries,
    present l.noticePort.val, present l.noticeMask.toNat, present l.generation.toNat]

/-- The place of a record in the ready pool: 1 for the head, 0 when it is not there (R133). -/
def poolPlace (s : State) (r : RecNo) : Nat :=
  if s.pool.contains r then s.pool.findIdx (· == r) + 1 else 0

/-- A receiver record (R133); of a free record everything but generation and pool place is absent (log
entry 34). -/
def receiverFields (s : State) (r : RecNo) : List FieldValue :=
  let x := s.receivers[r]
  let field (f : ReceiverData → Option Nat) : FieldValue := .single (x.data.bind f)
  [field fun d => some d.id.toNat, field fun d => some d.state.code,
    field fun d => d.place.map (·.1.val), field fun d => d.place.map (·.2.val),
    field fun d => d.dockStamp.map (·.toNat), field fun d => some d.battery,
    field fun d => some (yesNo d.charging), field fun d => d.keyedProgram.map (·.val),
    field fun d => d.outfit.map (·.toNat), field fun d => d.issueStamp.map (·.toNat),
    field fun d => d.loanDeadline.map (·.toNat), field fun d => some (yesNo d.unconfirmed),
    present x.generation.toNat, present (poolPlace s r)]

/-- The class of a receiver in its charge queue: 1 critical, 2 other (Table 11-10). -/
def chargeClass (s : State) (r : RecNo) : Nat :=
  match s.receivers[r].data with
  | none => 2
  | some d => if isCritical s d then 1 else 2

/-- The item of a key order (Table 11-10). -/
def keyItem (flying : Bool) : KeyOrder → List Nat
  | .key k p => [3, k.val, p.val, yesNo flying]
  | .unkey k => [4, k.val, absent32, yesNo flying]

/-- The occupant of a slot as a value (Table 11-10). -/
def Occupant.value : Occupant → Nat
  | .empty => absent32
  | .receiver r => r.val
  | .unregistered => 0xFFFFFFFE

/-- A rack record (R148). -/
def rackFields (s : State) (e : Rack) : List FieldValue :=
  [present (yesNo e.online), present (yesNo e.inventory), clockField e.inventoryDeadline,
    present e.grantLimit, .items (e.grants.map fun r => [r.val]),
    .items (e.chargeQueue.map fun r => [r.val, chargeClass s r]),
    .items (e.flying.toList.map (keyItem true) ++ e.waiting.map (keyItem false)),
    present (yesNo e.inFlight), present e.attempts, clockField e.keyDeadline,
    .items (e.abandoned.map fun k => [k.val]),
    .items ((fins 40).map fun k =>
      [k.val, e.slots[k].occupant.value, yesNo e.slots[k].unkeyOwed]),
    present e.generation.toNat]

/-- The fields of an entry as they stand, in code order; none for an index outside the table (R152). -/
def entryFields (s : State) (t : Table) (index : Nat) : List FieldValue :=
  match t with
  | .source => ((toFin 64 index).map fun i => sourceFields s.sources[i]).getD []
  | .tour => ((toFin 24 index).map fun i => tourFields s.tours[i]).getD []
  | .program => ((toFin 96 index).map fun i => programFields s.programs[i]).getD []
  | .gain => ((toFin 16 index).map fun i =>
      [present s.gains[i].value, present s.gains[i].generation.toNat]).getD []
  | .zone => ((toFin 8 index).map fun i =>
      [present s.zones[i].members.toNat, present s.zones[i].generation.toNat]).getD []
  | .port => ((toFin 12 index).map fun i => portFields s.ports[i] s.galleries[i]).getD []
  | .limits => limitsFields s.limits
  | .receiver => ((toFin 320 index).map fun i => receiverFields s i).getD []
  | .rack => ((toFin 12 index).map fun i => rackFields s s.racks[i]).getD []

/-- The bytes of an entry as it stands (11.4). -/
def entryResult (s : State) (t : Table) (index : Nat) : List Byte :=
  entryBytes t index (entryFields s t index)

/-- The value of a test field as it stands (R154). -/
def testValue (s : State) (t : Table) (index field : Nat) : Option Nat :=
  match (entryFields s t index)[field - 1]? with
  | some (.single v) => v
  | _ => none

/-! ### SOURCE (R18, R19) -/

/-- A written value above a bound, the field being named. -/
def writtenAbove (items : List (Nat × Nat)) (field bound : Nat) : Bool :=
  match valueFor items field with
  | none => false
  | some v => bound < v

/-- A written value that is absent, or the value written. -/
def writtenValue (v : Nat) : Option Nat := if v = absent32 then none else some v

/-- The source id after a write. -/
def idAfter (r : Source) (items : List (Nat × Nat)) : Option (BitVec 16) :=
  match valueFor items 1 with
  | none => r.id
  | some v => (writtenValue v).map (BitVec.ofNat 16)

/-- The role after a write. -/
def roleAfter (r : Source) (items : List (Nat × Nat)) : SourceRole :=
  match valueFor items 2 with
  | none => r.role
  | some v => (sourceRoleOf v).getD r.role

/-- A value of a SOURCE write outside what is accepted (R18). -/
def sourceRange (items : List (Nat × Nat)) : Bool :=
  (match valueFor items 1 with
    | none => false
    | some v => v != absent32 && (v < 1 || 65534 < v)) ||
  (match valueFor items 2 with
    | none => false
    | some v => (sourceRoleOf v).isNone) ||
  writtenAbove items 3 15 || writtenAbove items 4 1

/-- Some announcement in this state names the slot (R60: at most one does). -/
def isAnnouncer (s : State) (i : SourceSlot) (state : AnnState) : Bool :=
  (fins 4).any fun n =>
    match s.announcements[n] with
    | none => false
    | some a => a.slot == i && a.state == state

/-- A slot is referenced (R19). -/
def isReferenced (s : State) (i : SourceSlot) : Bool :=
  ((fins 24).any fun t => s.tours[t].state == .opened && s.tours[t].guide == some i) ||
  ((fins 96).any fun p =>
    s.programs[p].mode == .interpreter && s.programs[p].interpreter == some i &&
      s.tours[tourOf p].state == .opened) ||
  isAnnouncer s i .on

/-- The written id is held by another slot. -/
def idElsewhere (s : State) (i : SourceSlot) (id : Option (BitVec 16)) : Bool :=
  id.isSome && (fins 64).any fun j => j != i && s.sources[j].id == id

/-- A SOURCE write refused by the state of the hub (R19). -/
def sourceRefused (s : State) (i : SourceSlot) (items : List (Nat × Nat)) : Bool :=
  let r := s.sources[i]
  let newId := idAfter r items != r.id
  let newRole := roleAfter r items != r.role
  ((newId || newRole) && isReferenced s i) || (newId && idElsewhere s i (idAfter r items)) ||
    (newRole && isAnnouncer s i .waiting)

/-- A slot takes a new id, or loses its id (R19). -/
def renameSource (i : SourceSlot) (s : State) : State :=
  let s := emptyStore i s
  let s := s.modSource i fun r =>
    { r with lostDeadline := none, state := if r.id.isSome then .idle else .unused }
  handOnWritten i (forgetGuide i s)

/-- A taken SOURCE write (R18, R19). -/
def writeSource (i : SourceSlot) (items : List (Nat × Nat)) (s : State) : State :=
  let old := s.sources[i]
  let s := s.modSource i fun r =>
    { r with
      id := idAfter old items
      role := roleAfter old items
      gainStep := (valueFor items 3).elim r.gainStep (Fin.ofNat 16)
      mute := (valueFor items 4).elim r.mute (· == 1) }
  let s := if idAfter old items = old.id then s else renameSource i s
  let s := if old.role = .guide ∧ roleAfter old items ≠ .guide then forgetGuide i s else s
  s.modSource i fun r => { r with generation := r.generation + 1 }

/-! ### TOUR (R23, R29) -/

/-- A taken TOUR write: the class, and with it the carry ranks of the tour's wanted programs, which the wait lists
apply as one change (R23, R29). -/
def writeTour (t : TourNo) (items : List (Nat × Nat)) (s : State) : State :=
  let s := s.modTour t fun r =>
    { r with priority := (valueFor items 3).elim r.priority (Fin.ofNat 4)
             generation := r.generation + 1 }
  rerank (wantedPrograms s t) s

/-! ### PROGRAM (R32, R34) -/

/-- The write names the voice mode, the interpreter source slot or the target. -/
def namesTrio (items : List (Nat × Nat)) : Bool :=
  (valueFor items 2).isSome || (valueFor items 3).isSome || (valueFor items 4).isSome

/-- The voice mode after a write; none for a code that names no mode. -/
def modeAfter (r : Program) (items : List (Nat × Nat)) : Option VoiceMode :=
  match valueFor items 2 with
  | none => some r.mode
  | some v => voiceModeOf v

/-- A slot or target after a write, in the mode `used` or not: the value written, else the one held. -/
def partAfter (used : Bool) (held : Option Nat) (items : List (Nat × Nat)) (field : Nat) :
    Option Nat :=
  if used then
    match valueFor items field with
    | none => held
    | some v => writtenValue v
  else none

/-- The interpreter source slot after a write that leaves mode `m`. -/
def interpreterAfter (r : Program) (m : VoiceMode) (items : List (Nat × Nat)) : Option Nat :=
  partAfter (m == .interpreter) (r.interpreter.map (·.val)) items 3

/-- The target after a write that leaves mode `m`. -/
def targetAfter (r : Program) (m : VoiceMode) (items : List (Nat × Nat)) : Option Nat :=
  partAfter (m == .linked) (r.target.map (·.val)) items 4

/-- A slot or target is given to a program whose mode after the write does not use it (R32). -/
def givenUnused (used : Bool) (items : List (Nat × Nat)) (field : Nat) : Bool :=
  !used && ((valueFor items field).bind writtenValue).isSome

/-- Mode, slot and target out of range together (R32). -/
def trioRange (s : State) (p : ProgNo) (items : List (Nat × Nat)) : Bool :=
  let r := s.programs[p]
  match modeAfter r items with
  | none => true
  | some m =>
    (if langOf p = 0 then m != .guide else m == .guide) ||
    (m == .interpreter && ((interpreterAfter r m items).bind (toFin 64)).isNone) ||
    (m == .linked &&
      match (targetAfter r m items).bind (toFin 96) with
      | none => true
      | some t => t == p || s.programs[t].mode == .linked) ||
    givenUnused (m == .interpreter) items 3 || givenUnused (m == .linked) items 4

/-- A value of a PROGRAM write outside what is accepted (R32, R34). -/
def programRange (s : State) (p : ProgNo) (items : List (Nat × Nat)) : Bool :=
  writtenAbove items 1 15 || writtenAbove items 5 15 || writtenAbove items 6 15 ||
    writtenAbove items 7 15 || writtenAbove items 8 1 || (namesTrio items && trioRange s p items)

/-- The interpreter source slot of a program may not be used by it: not an INTERPRETER, UNUSED, or
another program's (R32). -/
def interpreterTaken (s : State) (p : ProgNo) (i : SourceSlot) : Bool :=
  s.sources[i].role != .interpreter || s.sources[i].state == .unused ||
    (fins 96).any fun q =>
      q != p && s.programs[q].mode == .interpreter && s.programs[q].interpreter == some i

/-- Mode, slot and target refused by the state of the hub (R32). -/
def trioRefused (s : State) (p : ProgNo) (items : List (Nat × Nat)) : Bool :=
  let r := s.programs[p]
  match modeAfter r items with
  | none => false
  | some m =>
    let interpreter := (interpreterAfter r m items).bind (toFin 64)
    let target := (targetAfter r m items).bind (toFin 96)
    (r.state == .active && (m != r.mode || interpreter != r.interpreter || target != r.target)) ||
    (m == .linked && (fins 96).any fun q => q != p && s.programs[q].target == some p) ||
    (match interpreter with
      | none => false
      | some i => interpreterTaken s p i)

/-- A PROGRAM write refused by the state of the hub (R32). -/
def programRefused (s : State) (p : ProgNo) (items : List (Nat × Nat)) : Bool :=
  namesTrio items && trioRefused s p items

/-- A program with its voice mode, slot and target as written. -/
def setTrio (items : List (Nat × Nat)) (r : Program) : Program :=
  match modeAfter r items with
  | none => r
  | some m =>
    { r with mode := m
             interpreter := (interpreterAfter r m items).bind (toFin 64)
             target := (targetAfter r m items).bind (toFin 96) }

/-- A taken PROGRAM write; R26 follows for the program, its former target and its new one (R32, R34). -/
def writeProgram (p : ProgNo) (items : List (Nat × Nat)) (s : State) : State :=
  let former := s.programs[p].target
  let s := s.modProgram p fun r =>
    let r := if namesTrio items then setTrio items r else r
    { r with
      language := (valueFor items 1).elim r.language (Fin.ofNat 16)
      voiceStep := (valueFor items 5).elim r.voiceStep (Fin.ofNat 16)
      floorStep := (valueFor items 6).elim r.floorStep (Fin.ofNat 16)
      fallbackStep := (valueFor items 7).elim r.fallbackStep (Fin.ofNat 16)
      carryAlways := (valueFor items 8).elim r.carryAlways (· == 1)
      generation := r.generation + 1 }
  forEach (p :: former.toList ++ s.programs[p].target.toList) derive s

/-! ### GAIN, ZONE (R49, R59) -/

/-- A taken GAIN write (R49). -/
def writeGain (i : GainStep) (items : List (Nat × Nat)) (s : State) : State :=
  let g := s.gains[i]
  let after : Gain :=
    { value := (valueFor items 1).elim g.value (min 32767), generation := g.generation + 1 }
  { s with gains := s.gains.set i after }

/-- A taken ZONE write: the whole set, and the overlays chosen again (R59). -/
def writeZone (z : ZoneNo) (items : List (Nat × Nat)) (s : State) : State :=
  let e := s.zones[z]
  let after : Zone :=
    { members := (valueFor items 1).elim e.members (BitVec.ofNat 12), generation := e.generation + 1 }
  chooseAllOverlays { s with zones := s.zones.set z after }

/-! ### PORT (R157, R166, R170) -/

/-- The role after a PORT write. -/
def portRoleAfter (r : Port) (items : List (Nat × Nat)) : PortRole :=
  match valueFor items 1 with
  | none => r.role
  | some v => (portRoleOf v).getD r.role

/-- A PORT write with a code that names no role (R166). -/
def portRange (items : List (Nat × Nat)) : Bool :=
  match valueFor items 1 with
  | none => false
  | some v => (portRoleOf v).isNone

/-- A PORT write that would leave no port with the DESK role (R157). -/
def portRefused (s : State) (p : PortNo) (items : List (Nat × Nat)) : Bool :=
  portRoleAfter s.ports[p] items != .desk &&
    !(fins 12).any fun q => q != p && s.ports[q].role == .desk

/-- A PORT entry's generation advanced (R166). -/
def advancePort (p : PortNo) (s : State) : State :=
  s.modPort p fun e => { e with generation := e.generation + 1 }

/-- A taken PORT write (R166, R170), with the key orders that a rack's going offline leaves to send
(R142, R145). -/
def writePort (p : PortNo) (items : List (Nat × Nat)) (s : State) : State :=
  sendKeys (changeRole p (portRoleAfter s.ports[p] items) (advancePort p s))

/-! ### LIMITS (R155) -/

/-- The threshold of a field is outside 1..127. -/
def thresholdRange (items : List (Nat × Nat)) (field : Nat) : Bool :=
  match valueFor items field with
  | none => false
  | some v => v < 1 || 127 < v

/-- A value of a LIMITS write that is refused, not clamped (Table 9-4, R77, R165). -/
def limitsRange (l : Limits) (items : List (Nat × Nat)) : Bool :=
  thresholdRange items 4 || thresholdRange items 5 || writtenAbove items 14 11 ||
    writtenAbove items 15 0x3FFFF ||
    (valueFor items 4).getD l.join ≤ (valueFor items 5).getD l.leave

/-- A LIMITS write that names a notice port without the DESK role (R156). -/
def limitsRefused (s : State) (items : List (Nat × Nat)) : Bool :=
  match (valueFor items 14).bind (toFin 12) with
  | none => false
  | some p => s.ports[p].role != .desk

/-- The limits table as written (Table 9-4). -/
def limitsAfter (l : Limits) (items : List (Nat × Nat)) : Limits :=
  let set (field lo hi held : Nat) : Nat := (valueFor items field).elim held (clamp lo hi)
  { sourceLostMs := set 1 100 2000 l.sourceLostMs
    mixSlackMs := set 2 1 8 l.mixSlackMs
    pendingS := set 3 1 30 l.pendingS
    join := set 4 1 127 l.join
    leave := set 5 1 127 l.leave
    leaveHoldS := set 6 0 15 l.leaveHoldS
    silenceMs := set 7 100 2000 l.silenceMs
    settleMs := set 8 0 250 l.settleMs
    parkS := set 9 0 60 l.parkS
    readyThreshold := set 10 50 100 l.readyThreshold
    loanMin := set 11 10 720 l.loanMin
    critical := set 12 5 40 l.critical
    keyRetries := set 13 0 7 l.keyRetries
    noticePort := ((valueFor items 14).bind (toFin 12)).getD l.noticePort
    noticeMask := (valueFor items 15).elim l.noticeMask (BitVec.ofNat 18)
    generation := l.generation + 1 }

/-- A taken LIMITS write (R155); the critical threshold orders every charge queue at once (R136). -/
def writeLimits (items : List (Nat × Nat)) (s : State) : State :=
  forEach (fins 12) chargeSort { s with limits := limitsAfter s.limits items }

/-! ### RACK (R140) -/

/-- A taken RACK write: the grant limit, clamped, and its effect (R140). -/
def writeRack (g : PortNo) (items : List (Nat × Nat)) (s : State) : State :=
  applyGrantLimit g (s.modRack g fun e =>
    { e with grantLimit := (valueFor items 4).elim e.grantLimit (clamp 1 40)
             generation := e.generation + 1 })

/-! ### The checks and effects of a write, by table (R151 steps 4 and 5, R153) -/

/-- Step 4: a value is refused RANGE. -/
def writeRange (s : State) (t : Table) (index : Nat) (items : List (Nat × Nat)) : Bool :=
  match t with
  | .source => sourceRange items
  | .tour => writtenAbove items 3 3
  | .program => ((toFin 96 index).map fun p => programRange s p items).getD false
  | .zone => writtenAbove items 1 0xFFF
  | .port => portRange items
  | .limits => limitsRange s.limits items
  | .gain | .receiver | .rack => false

/-- Step 5: the owner refuses the write REFUSED_STATE. -/
def writeRefused (s : State) (t : Table) (index : Nat) (items : List (Nat × Nat)) : Bool :=
  match t with
  | .source => ((toFin 64 index).map fun i => sourceRefused s i items).getD false
  | .program => ((toFin 96 index).map fun p => programRefused s p items).getD false
  | .port => ((toFin 12 index).map fun p => portRefused s p items).getD false
  | .limits => limitsRefused s items
  | .tour | .gain | .zone | .receiver | .rack => false

/-- A taken write and its owner's effects, the generation advanced (R153). -/
def applyWrite (t : Table) (index : Nat) (items : List (Nat × Nat)) (s : State) : State :=
  match t with
  | .source => (toFin 64 index).elim s fun i => writeSource i items s
  | .tour => (toFin 24 index).elim s fun i => writeTour i items s
  | .program => (toFin 96 index).elim s fun p => writeProgram p items s
  | .gain => (toFin 16 index).elim s fun i => writeGain i items s
  | .zone => (toFin 8 index).elim s fun z => writeZone z items s
  | .port => (toFin 12 index).elim s fun p => writePort p items s
  | .limits => writeLimits items s
  | .receiver => s
  | .rack => (toFin 12 index).elim s fun g => writeRack g items s

end Sys2Proof.Machine
end

