-- ==== Sys2Proof/Machine/Requests.lean ====
section
/-! DEFINITION. Serving the head of the request queue (R150, R151): the three entry requests (R152 to
R154), and the operations of 9.6 and 9.7 but RESTART; their meanings, one for each request row. -/

namespace Sys2Proof.Machine

/-! ### Serving (R150) -/

/-- What serving a request gives: the state with the request's effects, the status and result fields of
the response, and what is done once the response has been handed to the port (R157, R162). -/
structure Served where
  state  : State
  status : Status
  result : List Byte
  after  : State → State

/-- A refused request: no effect, and no result fields (R151). -/
def refuse (status : Status) (s : State) : Served := ⟨s, status, [], id⟩

/-- A request carried out. -/
def done (result : List Byte) (s : State) : Served := ⟨s, .ok, result, id⟩

/-- Serve the head of the request queue when it is of this row; otherwise nothing. Its effects come first,
then the response, then what follows it; the request has left the queue (R150). -/
def serveHead (isRow : List Byte → Bool) (serve : PortNo → List Byte → State → Served) (s : State) :
    Host.Outcome State Fault Refusal :=
  s.running fun s =>
    match s.requests with
    | [] => s
    | r :: rest =>
      if isRow r.payload then
        let x := serve r.port r.payload { s with requests := rest }
        let answer : TxFrame :=
          .response (requestTag r.payload) (requestKind r.payload) x.status x.result
        x.after (respond r.port answer x.state)
      else s

/-- The request is of this kind (Table 11-8). -/
def isKind (code : Byte) (payload : List Byte) : Bool := requestKind payload == code

/-- The operands have this length, the header is whole, and a reserved operand byte, if there is one, is
zero (R151 step 1). -/
def formOk (length : Nat) (reserved : Option Nat) (payload : List Byte) : Bool :=
  headerOk payload && (operandsOf payload).length == length &&
    match reserved with
    | none => true
    | some i => byteAt (operandsOf payload) i == 0

/-! ### READ_ENTRY (R152) -/

/-- READ_ENTRY after the form checks (R151, R152): the entry as it stands, and read-and-clear (R35). -/
def readEntry (q : ReadRequest) (s : State) : Served :=
  match tableOf q.table with
  | none => refuse .noSuch s
  | some t =>
    if q.clear = true ∧ t ≠ .program then refuse .malformed s
    else if t.entries ≤ q.index then refuse .noSuch s
    else
      let result := entryResult s t q.index
      if q.clear then done result ((toFin 96 q.index).elim s fun p => clearClip p s)
      else done result s

/-- Serving READ_ENTRY. -/
def serveRead (_ : PortNo) (payload : List Byte) (s : State) : Served :=
  match parseRead payload with
  | none => refuse .malformed s
  | some q => readEntry q s

/-- READ_ENTRY (R152). -/
def execReadEntry (s : State) : Host.Outcome State Fault Refusal := serveHead (isKind 1) serveRead s

/-! ### WRITE_ENTRY and COND_WRITE (R153, R154) -/

/-- A write of a PORT entry that takes the DESK role from its own arrival port: its role change comes
after the response (R157). -/
def ownRoleChange (arrival : PortNo) (t : Table) (q : WriteRequest) (s : State) : Option PortRole :=
  let role := portRoleAfter s.ports[arrival] q.items
  if t = .port ∧ q.index = arrival.val ∧ s.ports[arrival].role = .desk ∧ role ≠ .desk then some role
  else none

/-- A taken write: its effects, and the entry after them; the role change of the arrival port is put off
until the response has been handed on (R153, R157). -/
def takeWrite (arrival : PortNo) (t : Table) (q : WriteRequest) (s : State) : Served :=
  match ownRoleChange arrival t q s with
  | none =>
    let s := applyWrite t q.index q.items s
    done (entryResult s t q.index) s
  | some role =>
    let s := advancePort arrival s
    let shown := s.modPort arrival fun e => { e with role := role }
    ⟨s, .ok, entryResult shown t q.index, fun s => sendKeys (changeRole arrival role s)⟩

/-- The first failure of steps 3 and 4: a read-only field, a value out of range (R151). -/
def writeFailure (s : State) (t : Table) (q : WriteRequest) : Option Status :=
  if !q.items.all fun x => t.isWritable x.1 then some .readOnly
  else if writeRange s t q.index q.items then some .range
  else none

/-- Every field named is one of the table's (R151 step 1). -/
def fieldsKnown (t : Table) (q : WriteRequest) : Bool := q.items.all fun x => t.hasField x.1

/-- WRITE_ENTRY after the form checks (R151, R153). -/
def writeEntry (arrival : PortNo) (q : WriteRequest) (s : State) : Served :=
  match tableOf q.table with
  | none => refuse .noSuch s
  | some t =>
    if !fieldsKnown t q then refuse .malformed s
    else if t.entries ≤ q.index then refuse .noSuch s
    else
      match writeFailure s t q with
      | some status => refuse status s
      | none =>
        if writeRefused s t q.index q.items then refuse .refusedState s
        else takeWrite arrival t q s

/-- Serving WRITE_ENTRY. -/
def serveWrite (arrival : PortNo) (payload : List Byte) (s : State) : Served :=
  match parseWrite payload with
  | none => refuse .malformed s
  | some q => writeEntry arrival q s

/-- WRITE_ENTRY (R153). -/
def execWriteEntry (s : State) : Host.Outcome State Fault Refusal := serveHead (isKind 2) serveWrite s

/-- The served request with other result fields: a COND_WRITE carries the entry as it stood before
(R154). -/
def Served.carrying (x : Served) (result : List Byte) : Served := { x with result := result }

/-- COND_WRITE after the form checks (R151, R154). -/
def condWrite (arrival : PortNo) (q : WriteRequest) (c : CondTest) (s : State) : Served :=
  match tableOf q.table with
  | none => refuse .noSuch s
  | some t =>
    if !fieldsKnown t q || !t.mayTest c.field then refuse .malformed s
    else if t.entries ≤ q.index then refuse .noSuch s
    else
      let before := entryResult s t q.index
      match writeFailure s t q with
      | some status => (refuse status s).carrying before
      | none =>
        if !c.condition.holds c.negate (testValue s t q.index c.field) c.operand then
          (refuse .condFalse s).carrying before
        else if writeRefused s t q.index q.items then (refuse .refusedState s).carrying before
        else (takeWrite arrival t q s).carrying before

/-- Serving COND_WRITE. -/
def serveCond (arrival : PortNo) (payload : List Byte) (s : State) : Served :=
  match parseCond payload with
  | none => refuse .malformed s
  | some (q, c) => condWrite arrival q c s

/-- COND_WRITE (R154). -/
def execCondWrite (s : State) : Host.Outcome State Fault Refusal := serveHead (isKind 3) serveCond s

/-! ### OPEN_TOUR and CLOSE_TOUR (R21, R22, R83, R131) -/

/-- OPEN_TOUR refused by the state of the hub (R21). -/
def openRefused (s : State) (t : TourNo) (i : SourceSlot) : Bool :=
  s.tours[t].state == .opened || ((progsOf t).any fun p => 0 < s.programs[p].issued) ||
    s.sources[i].state == .unused || s.sources[i].role != .guide ||
    (fins 24).any fun u => u != t && s.tours[u].state == .opened && s.tours[u].guide == some i

/-- A tour opened: the record, the derivation of its programs, and the joins of R83 (R21). -/
def openTour (t : TourNo) (i : SourceSlot) (priority : Fin 4) (s : State) : State :=
  let frozen := s.sources[i].state == .lost
  let s := s.modTour t fun r =>
    { state := .opened, guide := some i, priority := priority, gallerySet := []
      guideFrozen := frozen, generation := r.generation + 1 }
  offerPlace t (rederive (progsOf t) s)

/-- Serving OPEN_TOUR. -/
def serveOpen (_ : PortNo) (payload : List Byte) (s : State) : Served :=
  let o := operandsOf payload
  if !formOk 4 (some 3) payload then refuse .malformed s
  else
    match toFin 24 (byteAt o 0), toFin 64 (byteAt o 1), toFin 4 (byteAt o 2) with
    | none, _, _ => refuse .noSuch s
    | some t, some i, some priority =>
      if openRefused s t i then refuse .refusedState s
      else
        let s := openTour t i priority s
        done (entryResult s .tour t.val) s
    | some _, _, _ => refuse .range s

/-- OPEN_TOUR (R21). -/
def execOpenTour (s : State) : Host.Outcome State Fault Refusal := serveHead (isKind 4) serveOpen s

/-- The demand ends of a closing tour: for each gallery of its set, each wanted program (R22). -/
def closeDemand (t : TourNo) (s : State) : State :=
  forEach s.tours[t].gallerySet (fun g s => forEach (wantedPrograms s t) (fun p => demandEnd p g) s) s

/-- A tour closed: demand ends, the record, the overlays for the emptied set (R70), the fleet's part
(R131), and the derivation of its programs (R22). -/
def closeTour (t : TourNo) (s : State) : State :=
  let s := closeDemand t s
  let s := s.modTour t fun r =>
    { r with state := .closed, gallerySet := [], guideFrozen := false, generation := r.generation + 1 }
  rederive (progsOf t) (closeFleet t (chooseTourOverlays t s))

/-- Serving CLOSE_TOUR. -/
def serveClose (_ : PortNo) (payload : List Byte) (s : State) : Served :=
  if !formOk 2 (some 1) payload then refuse .malformed s
  else
    match toFin 24 (byteAt (operandsOf payload) 0) with
    | none => refuse .noSuch s
    | some t =>
      if s.tours[t].state = .closed then refuse .refusedState s
      else
        let s := sendKeys (closeTour t s)
        done (entryResult s .tour t.val) s

/-- CLOSE_TOUR (R22). -/
def execCloseTour (s : State) : Host.Outcome State Fault Refusal := serveHead (isKind 5) serveClose s

/-! ### OUTFIT and CANCEL_OUTFIT (R120, R124) -/

/-- The result fields of an order (Table 11-11). -/
def orderBytes (o : OutfitOrder) : List Byte :=
  put16 o.number.toNat ++ put8 o.tour.val ++ put8 o.lang.val ++ put8 o.want ++ put8 o.selected ++
    put8 o.keyed ++ put8 o.failed

/-- The result fields of the order of a number. -/
def orderResult (s : State) (n : BitVec 16) : List Byte :=
  match orderOf s n with
  | none => []
  | some o => orderBytes o

/-- Serving OUTFIT. -/
def serveOutfit (_ : PortNo) (payload : List Byte) (s : State) : Served :=
  let o := operandsOf payload
  if !formOk 4 (some 3) payload then refuse .malformed s
  else
    match toFin 24 (byteAt o 0), toFin 4 (byteAt o 1) with
    | some t, some l =>
      if s.tours[t].state ≠ .opened ∨ s.programs[progOf t l].mode = .unset then
        refuse .refusedState s
      else if Config.outfitOrders ≤ s.outfits.length then refuse .tableFull s
      else
        let n := s.nextOrder
        let s := sendKeys (createOrder t l (clamp 1 40 (byteAt o 2)) s)
        done (orderResult s n) s
    | _, _ => refuse .noSuch s

/-- OUTFIT (R120). -/
def execOutfit (s : State) : Host.Outcome State Fault Refusal := serveHead (isKind 6) serveOutfit s

/-- Serving CANCEL_OUTFIT: the order as it stood once its waiting KEYs were set apart, S being the
receivers left KEYING (R124). -/
def serveCancel (_ : PortNo) (payload : List Byte) (s : State) : Served :=
  if !formOk 2 none payload then refuse .malformed s
  else
    let n : BitVec 16 := BitVec.ofNat 16 (wordAt (operandsOf payload) 0)
    match orderOf s n with
    | none => refuse .noSuch s
    | some o => done (orderBytes { o with selected := flyingFor s n }) (sendKeys (cancelOrder n s))

/-- CANCEL_OUTFIT (R124). -/
def execCancelOutfit (s : State) : Host.Outcome State Fault Refusal :=
  serveHead (isKind 7) serveCancel s

/-! ### ANNOUNCE (R61 to R65) -/

/-- The result of an ANNOUNCE: the record that holds the slot, or "none" (R65, Table 11-11). -/
def announceResult (s : State) (i : Option SourceSlot) : List Byte :=
  match i.bind (announcementOf s) with
  | none => 0xFF :: List.replicate 20 0
  | some (n, a) =>
    put8 n.val ++ put8 a.state.code ++ put8 a.slot.val ++ put8 a.zones.toNat ++ put8 a.priority.val ++
      put8 a.levelStep.val ++ put8 a.duckStep.val ++ put16 a.duration ++
      opt32 (a.startStamp.map (·.toNat)) ++ opt32 (a.endDeadline.map (·.toNat)) ++
      opt32 (a.pendingDeadline.map (·.toNat))

/-- The stop flag of an ANNOUNCE (Table 11-8). -/
def stopFlag (payload : List Byte) : Bool := (payload.getD 5 0).getLsbD 1

/-- The start flag of an ANNOUNCE (Table 11-8). -/
def startFlag (payload : List Byte) : Bool := (payload.getD 5 0).getLsbD 0

/-- The operands of an ANNOUNCE in their ranges, the duration clamped (R61). -/
def announceOperands (payload : List Byte) : Option AnnounceOperands :=
  let o := operandsOf payload
  match toFin 64 (byteAt o 0), toFin 4 (byteAt o 3), toFin 16 (byteAt o 4), toFin 16 (byteAt o 5) with
  | some slot, some priority, some level, some duck =>
    some ⟨slot, BitVec.ofNat 8 (byteAt o 2), priority, level, duck, clampDuration (wordAt o 6)⟩
  | _, _, _, _ => none

/-- The form of an ANNOUNCE: 8 operand bytes, no flag but start and stop (R151 step 1). -/
def announceForm (payload : List Byte) : Bool :=
  formOk 8 none payload && byteAt (operandsOf payload) 1 < 4

/-- An ANNOUNCE served: refused MALFORMED or RANGE, or carried out by `act`; the response carries the
record or "none" in every case (R65, R151; log entry 27). -/
def serveAnnounce (act : AnnounceOperands → State → Status × State) (payload : List Byte) (s : State) :
    Served :=
  let slot := toFin 64 (byteAt (operandsOf payload) 0)
  if !announceForm payload then
    (refuse .malformed s).carrying
      (announceResult s (if (operandsOf payload).length = 8 then slot else none))
  else
    match announceOperands payload with
    | none => (refuse .range s).carrying (announceResult s slot)
    | some o =>
      let x := act o s
      ⟨x.2, x.1, announceResult x.2 slot, id⟩

/-- Start or renewal (R61, R63, R64). -/
def startAnnouncement (o : AnnounceOperands) (s : State) : Status × State :=
  let r := s.sources[o.slot]
  if r.state = .unused ∨ r.role ≠ .announcer then (.refusedState, s)
  else
    match announcementOf s o.slot with
    | some (n, a) => (.ok, renewAnnouncement n o a s)
    | none =>
      match freeAnnouncement s with
      | some n => (.ok, createAnnouncement n o s)
      | none => (.tableFull, s)

/-- Stop (R62, R68). -/
def stopAnnouncement (o : AnnounceOperands) (s : State) : Status × State :=
  match announcementOf s o.slot with
  | some (n, _) => (.ok, endAnnouncement n s)
  | none => (.ok, s)

/-- ANNOUNCE_START: the start flag alone (R63, R64). -/
def execAnnounceStart (s : State) : Host.Outcome State Fault Refusal :=
  serveHead (fun p => isKind 8 p && startFlag p && !stopFlag p)
    (fun _ => serveAnnounce startAnnouncement) s

/-- ANNOUNCE_STOP: the stop flag, whatever the start flag (R62). -/
def execAnnounceStop (s : State) : Host.Outcome State Fault Refusal :=
  serveHead (fun p => isKind 8 p && stopFlag p) (fun _ => serveAnnounce stopAnnouncement) s

/-- ANNOUNCE_QUERY: neither flag (R62). -/
def execAnnounceQuery (s : State) : Host.Outcome State Fault Refusal :=
  serveHead (fun p => isKind 8 p && !startFlag p && !stopFlag p)
    (fun _ => serveAnnounce fun _ s => (.ok, s)) s

/-! ### CLEAR_FLAGS, READ_STATUS, RELEASE_LOG, SAVE_CONFIG (R158 to R161) -/

/-- Serving CLEAR_FLAGS. -/
def serveClear (_ : PortNo) (payload : List Byte) (s : State) : Served :=
  if !formOk 2 (some 1) payload then refuse .malformed s
  else
    match toFin 96 (byteAt (operandsOf payload) 0) with
    | none => refuse .noSuch s
    | some p => done [] (clearClip p s)

/-- CLEAR_FLAGS (R158). -/
def execClearFlags (s : State) : Host.Outcome State Fault Refusal := serveHead (isKind 9) serveClear s

/-- The delivery log in 11 bytes (11.4). -/
def logBytes (l : DeliveryLog) : List Byte :=
  put8 (yesNo l.captured.isSome) ++ opt8 (l.captured.map (·.port.val)) ++
    opt8 (l.captured.map (·.kind.toNat)) ++
    opt16 (l.captured.bind fun d => d.subject.map (·.toNat)) ++
    opt32 (l.captured.map (·.stamp.toNat)) ++ put16 l.count

/-- The hub-wide values (R159); `depth` counts the request being served. -/
def statusBytes (s : State) (depth : Nat) : List Byte :=
  put32 s.clock.toNat ++ opt16 (s.lastUnknown.map (·.toNat)) ++ logBytes s.log ++
    put8 (yesNo s.noticeOverflow) ++ put8 s.notices.length ++ put8 depth ++ put8 s.configStatus.code ++
    put8 (yesNo s.saving.isSome)

/-- Serving READ_STATUS: the values, and then the overflow flag becomes no. -/
def serveStatus (_ : PortNo) (payload : List Byte) (s : State) : Served :=
  if !formOk 0 none payload then refuse .malformed s
  else done (statusBytes s (s.requests.length + 1)) { s with noticeOverflow := false }

/-- READ_STATUS (R159). -/
def execReadStatus (s : State) : Host.Outcome State Fault Refusal :=
  serveHead (isKind 10) serveStatus s

/-- Serving RELEASE_LOG: the log as it stood, and then the log cleared. -/
def serveRelease (_ : PortNo) (payload : List Byte) (s : State) : Served :=
  if !formOk 0 none payload then refuse .malformed s
  else done (logBytes s.log) { s with log := DeliveryLog.cleared }

/-- RELEASE_LOG (R160). -/
def execReleaseLog (s : State) : Host.Outcome State Fault Refusal :=
  serveHead (isKind 11) serveRelease s

/-- Serving SAVE_CONFIG: a snapshot in IDLE, BUSY while a save runs. -/
def serveSave (_ : PortNo) (payload : List Byte) (s : State) : Served :=
  if !formOk 0 none payload then refuse .malformed s
  else
    match s.saving with
    | some _ => refuse .busy s
    | none => done [] { s with saving := some (imageOf s) }

/-- SAVE_CONFIG (R161). -/
def execSaveConfig (s : State) : Host.Outcome State Fault Refusal := serveHead (isKind 12) serveSave s

/-! ### UNKNOWN_REQUEST_KIND (R151) -/

/-- The request kind is none of Table 11-8's. -/
def isUnknownKind (payload : List Byte) : Bool :=
  let code := (requestKind payload).toNat
  code < 1 || 13 < code

/-- UNKNOWN_REQUEST_KIND: refused MALFORMED, the kind echoed as received (R151, Table 11-7). -/
def execUnknownRequestKind (s : State) : Host.Outcome State Fault Refusal :=
  serveHead isUnknownKind (fun _ _ s => refuse .malformed s) s

end Sys2Proof.Machine
end

