-- ==== Sys2Proof/Machine/Restart.lean ====
section
/-! DEFINITION. The RESTART request (R162): the RESTART rules of the blocks (R2, R20, R25, R37, R60, R72,
R90, R114, R118, R119, R134), in the order of log entry 31, and its meaning. -/

namespace Sys2Proof.Machine

/-- A source at RESTART: store, newest sequence and lost deadline gone, IDLE when its id is set (R2). -/
def Source.restarted (r : Source) : Source :=
  { r with store := [], newest := none, lostDeadline := none
           state := if r.id.isSome then .idle else .unused }

/-- The source unit and its hearing table (R2, R72). -/
def restartSources (s : State) : State :=
  let s := forEach (fins 64) (fun i s => s.modSource i Source.restarted) s
  { s with hearing := [], guideFrozen := Vector.replicate 64 false }

/-- Tours, announcements and carriers; the maps of the GALLERY ports that are UP follow (R20, R60, R90). -/
def restartGalleries (s : State) : State :=
  let s := forEach (fins 24) (fun t s =>
    s.modTour t fun r => { r with gallerySet := [], guideFrozen := false }) s
  let s := forEach (fins 4) (fun n s => s.setAnnouncement n none) s
  let s := forEach (fins 12) carriersLost s
  forEach (fins 12) (fun g s => if s.inUse g .gallery then carriersGained g s else s) s

/-- The programs: those ACTIVE leave, the CLIP fields clear, and every program is derived anew, after
every one has left (R25, R37). -/
def restartPrograms (s : State) : State :=
  let s := forEach (fins 96) (fun p s =>
    if s.programs[p].state = .active then leaveActive p s else s) s
  let s := forEach (fins 96) (fun p s =>
    clearClip p (s.modProgram p fun r => { r with overlayAnn := none })) s
  forEach (fins 96) derive s

/-- The fleet: KEYING receivers returned with their slots owing an UNKEY, no charging, no pool, no
orders, every rack offline (R114, R118, R119, R134). -/
def restartFleet (s : State) : State :=
  let s := forEach (fins 320) returnKeying s
  let s := forEach (fins 320) (fun r s => s.noteReceiver r fun d => { d with charging := false }) s
  let s := { s with pool := [], outfits := [] }
  forEach (fins 12) (fun g s => s.modRack g Rack.dark) s

/-- The inventories of the RACK ports that are UP (R134, R146). -/
def restartInventories (s : State) : State :=
  forEach (fins 12) (fun g s => if s.inUse g .rack then startInventory g s else s) s

/-- The queues and the delivery log at RESTART (R162 step 2). -/
def restartQueues (s : State) : State :=
  { s with requests := [], notices := [], noticeOverflow := false, log := DeliveryLog.cleared }

/-- Steps 2 to 6 of RESTART (R162). -/
def restartHub (s : State) : State :=
  let s := restartInventories (restartFleet (restartPrograms (restartGalleries
    (restartSources (restartQueues s)))))
  queueNotice .hubStarted (subjectOf s.configStatus.code) none 1 s

/-- Serving RESTART: the response first (R162 step 1). -/
def serveRestart (_ : PortNo) (payload : List Byte) (s : State) : Served :=
  if !formOk 0 none payload then refuse .malformed s else ⟨s, .ok, [], restartHub⟩

/-- RESTART (R162). -/
def execRestart (s : State) : Host.Outcome State Fault Refusal := serveHead (isKind 13) serveRestart s

end Sys2Proof.Machine
end

