-- ==== Sys2Proof/Machine/Dispatch.lean ====
section
/-! DEFINITION. The dispatch of a command to its meaning: one arm for each row of the opcode table. -/

namespace Sys2Proof.Machine

-- The meaning of every command, on everything but the queue of waiting commands.
def exec (i : Instr) (s : State) : Host.Outcome State Fault Refusal :=
  match i with
  | .powerOn => Sys2Proof.Machine.execPowerOn s
  | .configLoadComplete => Sys2Proof.Machine.execConfigLoadComplete s
  | .linkUp p => Sys2Proof.Machine.execLinkUp p s
  | .linkDown p => Sys2Proof.Machine.execLinkDown p s
  | .voiceFrame p frame => Sys2Proof.Machine.execVoiceFrame p frame s
  | .lostDeadlineExpiry slot => Sys2Proof.Machine.execLostDeadlineExpiry slot s
  | .blockDeadlineExpiry p => Sys2Proof.Machine.execBlockDeadlineExpiry p s
  | .silenceDeadlineExpiry slot p => Sys2Proof.Machine.execSilenceDeadlineExpiry slot p s
  | .leaveDeadlineExpiry slot p => Sys2Proof.Machine.execLeaveDeadlineExpiry slot p s
  | .settleDeadlineExpiry p c => Sys2Proof.Machine.execSettleDeadlineExpiry p c s
  | .parkDeadlineExpiry p c => Sys2Proof.Machine.execParkDeadlineExpiry p c s
  | .mapRefreshDeadlineExpiry p => Sys2Proof.Machine.execMapRefreshDeadlineExpiry p s
  | .endDeadlineExpiry n => Sys2Proof.Machine.execEndDeadlineExpiry n s
  | .pendingDeadlineExpiry n => Sys2Proof.Machine.execPendingDeadlineExpiry n s
  | .loanDeadlineExpiry r => Sys2Proof.Machine.execLoanDeadlineExpiry r s
  | .keyDeadlineExpiry p => Sys2Proof.Machine.execKeyDeadlineExpiry p s
  | .inventoryDeadlineExpiry p => Sys2Proof.Machine.execInventoryDeadlineExpiry p s
  | .dock p frame => Sys2Proof.Machine.execDock p frame s
  | .undock p frame => Sys2Proof.Machine.execUndock p frame s
  | .battery p frame => Sys2Proof.Machine.execBattery p frame s
  | .chargeDone p frame => Sys2Proof.Machine.execChargeDone p frame s
  | .keyDone p frame => Sys2Proof.Machine.execKeyDone p frame s
  | .keyFail p frame => Sys2Proof.Machine.execKeyFail p frame s
  | .slotFault p frame => Sys2Proof.Machine.execSlotFault p frame s
  | .inventoryEnd p frame => Sys2Proof.Machine.execInventoryEnd p frame s
  | .controlRequest p frame => Sys2Proof.Machine.execControlRequest p frame s
  | .readEntry => Sys2Proof.Machine.execReadEntry s
  | .writeEntry => Sys2Proof.Machine.execWriteEntry s
  | .condWrite => Sys2Proof.Machine.execCondWrite s
  | .openTour => Sys2Proof.Machine.execOpenTour s
  | .closeTour => Sys2Proof.Machine.execCloseTour s
  | .outfit => Sys2Proof.Machine.execOutfit s
  | .cancelOutfit => Sys2Proof.Machine.execCancelOutfit s
  | .announceStart => Sys2Proof.Machine.execAnnounceStart s
  | .announceStop => Sys2Proof.Machine.execAnnounceStop s
  | .announceQuery => Sys2Proof.Machine.execAnnounceQuery s
  | .clearFlags => Sys2Proof.Machine.execClearFlags s
  | .readStatus => Sys2Proof.Machine.execReadStatus s
  | .releaseLog => Sys2Proof.Machine.execReleaseLog s
  | .saveConfig => Sys2Proof.Machine.execSaveConfig s
  | .restart => Sys2Proof.Machine.execRestart s
  | .configSaveComplete readBack => Sys2Proof.Machine.execConfigSaveComplete readBack s
  | .ackTimeout stage offset => Sys2Proof.Machine.execAckTimeout stage offset s
  | .frameSent p => Sys2Proof.Machine.execFrameSent p s
  | .noticeSend => Sys2Proof.Machine.execNoticeSend s
  | .unknownRequestKind => Sys2Proof.Machine.execUnknownRequestKind s
  | .powerLoss stage offset => Sys2Proof.Machine.execPowerLoss stage offset s

end Sys2Proof.Machine
end

