-- ==== Sys2Proof/Machine/Expiries.lean ====
section
/-! DEFINITION. What the hub does of its own accord when no command waits (log entry 1): it sends the head
notice when that can leave (R164), else serves the head of the request queue (R150), else its clock
rises by one millisecond and every deadline reached expires (R174). -/

namespace Sys2Proof.Machine

/-- The command that serves a request, by its kind and, for ANNOUNCE, its flags (R150, Table 11-8). -/
def servingCommand (payload : List Byte) : Instr :=
  match (requestKind payload).toNat with
  | 1 => .readEntry
  | 2 => .writeEntry
  | 3 => .condWrite
  | 4 => .openTour
  | 5 => .closeTour
  | 6 => .outfit
  | 7 => .cancelOutfit
  | 8 => if stopFlag payload then .announceStop else if startFlag payload then .announceStart
    else .announceQuery
  | 9 => .clearFlags
  | 10 => .readStatus
  | 11 => .releaseLog
  | 12 => .saveConfig
  | 13 => .restart
  | _ => .unknownRequestKind

/-- The expiries that are due of a table's records, in record order. -/
def dueOf {α : Type} (s : State) (xs : List α) (deadline : α → Option Clock) (command : α → Instr) :
    List Instr :=
  (xs.filter fun x => s.due (deadline x)).map command

/-- Every carrier of every port. -/
def allCarriers : List (PortNo × CarrierNo) :=
  ((fins 12).map fun g => (fins 8).map fun c => (g, c)).flatten

/-- The expiries due at the present clock: table by table in the order of the opcode table, and in each
by record (log entry 2). -/
def dueExpiries (s : State) : List Instr :=
  dueOf s (fins 64) (fun i => s.sources[i].lostDeadline) .lostDeadlineExpiry ++
  dueOf s (fins 96) (fun p => s.programs[p].blockDeadline) .blockDeadlineExpiry ++
  dueOf s s.hearing (·.silenceDeadline) (fun r => .silenceDeadlineExpiry r.slot r.port) ++
  dueOf s s.hearing (·.leaveDeadline) (fun r => .leaveDeadlineExpiry r.slot r.port) ++
  dueOf s allCarriers (fun x => s.galleries[x.1].carriers[x.2].settleDeadline)
    (fun x => .settleDeadlineExpiry x.1 x.2) ++
  dueOf s allCarriers (fun x => s.galleries[x.1].carriers[x.2].parkDeadline)
    (fun x => .parkDeadlineExpiry x.1 x.2) ++
  dueOf s (fins 12) (fun g => s.galleries[g].mapRefresh) .mapRefreshDeadlineExpiry ++
  dueOf s (fins 4) (fun n => s.announcements[n].bind (·.endDeadline)) .endDeadlineExpiry ++
  dueOf s (fins 4) (fun n => s.announcements[n].bind (·.pendingDeadline)) .pendingDeadlineExpiry ++
  dueOf s (fins 320) (fun r => s.receivers[r].data.bind (·.loanDeadline)) .loanDeadlineExpiry ++
  dueOf s (fins 12) (fun g => s.racks[g].keyDeadline) .keyDeadlineExpiry ++
  dueOf s (fins 12) (fun g => s.racks[g].inventoryDeadline) .inventoryDeadlineExpiry

/-- One millisecond passes: the clock rises by one and wraps, and the deadlines it reaches are queued
(R174). -/
def tick (s : State) : State :=
  let s := { s with clock := s.clock + 1 }
  { s with pending := s.pending ++ dueExpiries s }

/-- The running hub's next own event: a notice that can leave, a request that waits, else a tick. -/
def ownEvent (s : State) : State :=
  if noticeReady s then { s with pending := s.pending ++ [.noticeSend] }
  else
    match s.requests with
    | r :: _ => { s with pending := s.pending ++ [servingCommand r.payload] }
    | [] => tick s

/-- The hub with no command waiting: without power nothing happens, and while the image is read only the
clock runs (R174, R175). -/
def idle (s : State) : State :=
  match s.phase with
  | .off => s
  | .loading => { s with clock := s.clock + 1 }
  | .running => ownEvent s

end Sys2Proof.Machine
end

