-- ==== Sys2Proof/Safety.lean ====
section
/-! DEFINITION. What a safe run is, in the terms of the claims: a step that answers a next state, and the
bounds and forms that the spec gives the hub's tables and that every step keeps. -/

namespace Sys2Proof

/-- The step answers a next state: the hub neither faults nor refuses. -/
def Safe (s : Machine.State) : Prop := ∃ t, Machine.step s = .next t

/-- The configuration memory has its canonical form, and a save in progress writes an image (R180). -/
def MemoryOk (s : Machine.State) : Prop :=
  Machine.Memory.wf s.memory = true ∧
    ∀ image, s.saving = some image → image.length = Machine.imageLength

/-- The queues that the hub shares keep to their depths (R149, R163, R171). -/
def QueuesOk (s : Machine.State) : Prop :=
  s.requests.length ≤ Config.requestDepth ∧ s.notices.length ≤ Config.noticeDepth ∧
    ∀ p : PortNo, s.ports[p].queue.length ≤ Config.transmitDepth ∧
      Machine.audioCount s.ports[p].queue ≤ Config.transmitAudio

/-- The tables of varying length keep to their bounds: frame stores (R11), hearing records (R72), gallery
sets (R80), outfit orders (R119). -/
def TablesOk (s : Machine.State) : Prop :=
  (∀ i : SourceSlot, s.sources[i].store.length ≤ Config.storeDepth) ∧
    s.hearing.length ≤ Config.hearingRecords ∧
    (∀ t : TourNo, s.tours[t].gallerySet.length ≤ Config.gallerySetSize) ∧
    s.outfits.length ≤ Config.outfitOrders

/-- The notice port is a port with the DESK role (R156, R157). -/
def NoticePortOk (s : Machine.State) : Prop := s.ports[s.limits.noticePort].role = .desk

/-! ### The situations that the statements speak of -/

namespace Machine

/-- A running hub whose request queue has this request at its head. -/
def Serving (s : State) (p : PortNo) (payload : List Byte) (rest : List Request) : Prop :=
  s.phase = .running ∧ s.requests = ⟨p, payload⟩ :: rest

/-- The payload of a control request with a zero reserved byte (Table 11-7). -/
def requestPayload (tag : BitVec 16) (kind : Nat) (operands : List Byte) : List Byte :=
  put16 tag.toNat ++ put8 kind ++ put8 0 ++ operands

/-- The running hub's port is UP and has this role. -/
def PortIs (s : State) (p : PortNo) (role : PortRole) : Prop :=
  s.phase = .running ∧ s.ports[p].link = .up ∧ s.ports[p].role = role

/-- The frame of a rack report: kind, slot, receiver id, level (Table 11-5). -/
def reportFrame (kind : Nat) (k : RackSlot) (id : BitVec 24) (level : Nat) : List Byte :=
  envelope 0x04 (put8 kind ++ put8 k.val ++ put24 id.toNat ++ put8 level)

/-- A voice frame: source id, sequence, level, format, 128 sample bytes (Table 11-2). -/
def voiceFrame (id : BitVec 16) (seq : Seq) (level format : Nat) (samples : List Byte) : List Byte :=
  envelope 0x01 (put16 id.toNat ++ put8 seq.toNat ++ put8 level ++ put8 format ++ samples)

/-- The record `i` is the lowest-numbered one that holds the source id. -/
def HoldsId (s : State) (id : BitVec 16) (i : SourceSlot) : Prop :=
  s.sources[i].id = some id ∧ ∀ j : SourceSlot, j < i → s.sources[j].id ≠ some id

/-- The receiver in a slot of a rack, with what its record holds. -/
def InSlot (s : State) (g : PortNo) (k : RackSlot) (r : RecNo) (d : ReceiverData) : Prop :=
  s.racks[g].slots[k].occupant = .receiver r ∧ s.receivers[r].data = some d

/-- An order that a rack holds in flight. -/
def Flying (s : State) (g : PortNo) (o : KeyOrder) : Prop :=
  s.racks[g].inFlight = true ∧ s.racks[g].keyQueue.head? = some o

/-- No port's link, role or generation differs. -/
def PortsKept (s t : State) : Prop :=
  ∀ p : PortNo, t.ports[p].role = s.ports[p].role ∧ t.ports[p].link = s.ports[p].link ∧
    t.ports[p].generation = s.ports[p].generation

/-- The tour desk's settings of limits, gains, zones and port roles are the same. -/
def SettingsKept (s t : State) : Prop :=
  t.limits = s.limits ∧ t.gains = s.gains ∧ t.zones = s.zones ∧
    ∀ p : PortNo, t.ports[p].role = s.ports[p].role

/-- Every setting that an image holds is one that the tables accept (R18, R49, R134, R155, R156). -/
def SettingsInRange (s : State) : Prop :=
  (∀ i : GainStep, s.gains[i].value ≤ 32767) ∧
    (∀ p : PortNo, 1 ≤ s.racks[p].grantLimit ∧ s.racks[p].grantLimit ≤ 40) ∧
    (∀ i : SourceSlot, s.sources[i].id ≠ some 0 ∧ s.sources[i].id ≠ some 0xFFFF) ∧
    (∀ i j : SourceSlot, s.sources[i].id = s.sources[j].id → s.sources[i].id ≠ none → i = j) ∧
    s.ports[s.limits.noticePort].role = .desk ∧
    (100 ≤ s.limits.sourceLostMs ∧ s.limits.sourceLostMs ≤ 2000) ∧
    (1 ≤ s.limits.mixSlackMs ∧ s.limits.mixSlackMs ≤ 8) ∧
    (1 ≤ s.limits.pendingS ∧ s.limits.pendingS ≤ 30) ∧
    (s.limits.join ≤ 127 ∧ 1 ≤ s.limits.leave ∧ s.limits.leave < s.limits.join) ∧
    s.limits.leaveHoldS ≤ 15 ∧ (100 ≤ s.limits.silenceMs ∧ s.limits.silenceMs ≤ 2000) ∧
    s.limits.settleMs ≤ 250 ∧ s.limits.parkS ≤ 60 ∧
    (50 ≤ s.limits.readyThreshold ∧ s.limits.readyThreshold ≤ 100) ∧
    (10 ≤ s.limits.loanMin ∧ s.limits.loanMin ≤ 720) ∧
    (5 ≤ s.limits.critical ∧ s.limits.critical ≤ 40) ∧ s.limits.keyRetries ≤ 7

/-- The frame stores lost at most some of their oldest entries, and nothing else of the sources differs. Which
entries leave is the removal rule's, R14. -/
def SourcesTrimmed (s t : State) : Prop :=
  ∀ i : SourceSlot, t.sources[i] = { s.sources[i] with store := t.sources[i].store } ∧
    t.sources[i].store <:+ s.sources[i].store

/-- The notices of one state stand at the front of another's. -/
def NoticesGrow (s t : State) : Prop := s.notices <+: t.notices

/-- What an event of the fleet leaves alone: tours, hearing, announcements, requests, settings, power and
memory; the sources but for oldest entries of their frame stores. -/
def FleetFrame (s t : State) : Prop :=
  SourcesTrimmed s t ∧ PortsKept s t ∧ NoticesGrow s t ∧
    t = { s with
          receivers := t.receivers, pool := t.pool, outfits := t.outfits, racks := t.racks
          programs := t.programs, galleries := t.galleries, sources := t.sources, ports := t.ports
          notices := t.notices, noticeOverflow := t.noticeOverflow, log := t.log }

/-- Outfit orders and pool stand as the selection of R121 leaves them that starts from these orders and this pool. -/
def SelectedFrom (s t : State) (orders : List OutfitOrder) (pool : List RecNo) : Prop :=
  t.outfits = (runSelection { s with outfits := orders, pool := pool }).outfits ∧
    t.pool = (runSelection { s with outfits := orders, pool := pool }).pool

/-- The receiver that a rack held is FAULTY after an event (R130). When it was KEYING for an outfit order, S of that
order falls by one, F rises by one, and selection runs; else orders and pool lose nothing but the receiver. -/
def FaultyIn (s t : State) (g : PortNo) (r : RecNo) (d : ReceiverData) : Prop :=
  t.receivers[r].data = some { d with
    state := .faulty, keyedProgram := none, outfit := none, charging := false } ∧
  r ∉ t.pool ∧ r ∉ t.racks[g].chargeQueue ∧ r ∉ t.racks[g].grants ∧
  (d.state = .keying → SelectedFrom s t (s.outfits.map fun o => if d.outfit = some o.number then
    { o with selected := o.selected - 1, failed := min 255 (o.failed + 1) } else o) (s.pool.filter (· ≠ r))) ∧
  (d.state ≠ .keying → t.outfits = s.outfits ∧ t.pool = s.pool.filter (· ≠ r)) ∧
  (∀ p, d.state = .keyed → d.keyedProgram = some p →
    t.programs[p].keyed = s.programs[p].keyed - 1 ∧ t.programs[p].issued = s.programs[p].issued) ∧
  FleetFrame s t

/-- A rack went offline (R145): no inventory, grants, queues, order in flight or abandoned orders; its receivers are
out of the pool and not charging; each KEYING one is DOCKED_READY, its slot owing an UNKEY, and S of its outfit order
falls by one, before selection runs from the pool of the other racks. RACK_OFFLINE comes last, with the number of slots
that hold a receiver. -/
def WentOffline (s t : State) (g : PortNo) : Prop :=
  let inRack (r : RecNo) : Bool := s.receivers[r].data.any fun d => d.place.map (·.1) == some g
  let lost (o : OutfitOrder) : Nat := (List.finRange 320).countP fun r =>
    inRack r && s.receivers[r].data.any fun d => d.state == .keying && d.outfit == some o.number
  ∃ x, t = queueNotice .rackOffline (some (BitVec.ofNat 16 g.val)) none
      (BitVec.ofNat 16 ((List.finRange 40).countP fun k => match s.racks[g].slots[k].occupant with
        | .receiver _ => true
        | .empty | .unregistered => false)) x ∧
    x = { s with receivers := x.receivers, racks := x.racks, pool := x.pool, outfits := x.outfits } ∧
    x.racks[g] = { Rack.initial with
      slots := x.racks[g].slots, grantLimit := s.racks[g].grantLimit
      generation := s.racks[g].generation } ∧
    (∀ k : RackSlot, x.racks[g].slots[k].occupant = s.racks[g].slots[k].occupant) ∧
    (∀ (r : RecNo) (d : ReceiverData), x.receivers[r].data = some d → d.place.map (·.1) = some g →
      r ∉ x.pool ∧ d.charging = false ∧ d.state ≠ .keying) ∧
    (∀ (r : RecNo) (d : ReceiverData) (k : RackSlot), s.receivers[r].data = some d → d.state = .keying →
      d.place = some (g, k) → x.racks[g].slots[k].unkeyOwed = true ∧ x.receivers[r].data = some { d with
        state := .dockedReady, charging := false, keyedProgram := none, outfit := none }) ∧
    SelectedFrom s x
      (s.outfits.map fun o => { o with selected := o.selected - lost o }) (s.pool.filter fun r => !inRack r)

/-- A KEY_FAILED notice stands among the notices, unless its kind is disabled or the queue is full; the detail is
256 × cause + kind (R132, R163). -/
def KeyFailedSaid (s t : State) (r : RecNo) (d : ReceiverData) (detail : Nat) : Prop :=
  s.limits.enabled .keyFailed = true → t.notices.length < 16 →
    ⟨.keyFailed, s.clock, some (BitVec.ofNat 16 r.val), d.keyedProgram.map fun p => BitVec.ofNat 16 p.val,
      BitVec.ofNat 16 detail⟩ ∈ t.notices

/-- Only overlays of programs, and oldest entries of frame stores, differ (R70). -/
def OverlaysFollow (s t : State) : Prop :=
  SourcesTrimmed s t ∧ ∀ q : ProgNo, t.programs[q] = { s.programs[q] with
    overlayAnn := t.programs[q].overlayAnn, overlay := t.programs[q].overlay }

/-- A program holds a carrier on a port or stands on its wait list (R97). -/
def ServedOrWaiting (s : State) (p : ProgNo) (g : PortNo) : Prop :=
  (servingCarrier s.galleries[g] p).isSome = true ∨ isWaiting s.galleries[g] p = true

/-- The wanted programs of a tour, in ascending number. -/
def wantedOf (s : State) (n : TourNo) : List ProgNo :=
  ((List.finRange 4).map (progOf n)).filter fun p => s.programs[p].wanted

/-- A tour's gallery set became `set`; then `demand` was handed on for each wanted program of the tour in turn, and the
overlays of its ACTIVE programs are those of R69 for the set; no other gallery's carriers differ (R82 steps 1 to 3). -/
def SetBecame (s v : State) (n : TourNo) (g : PortNo) (set : List PortNo)
    (demand : ProgNo → PortNo → State → State) : Prop :=
  let u := (wantedOf s n).foldl (fun y p => demand p g y)
    { s with tours := s.tours.set n { s.tours[n] with gallerySet := set } }
  v = { u with programs := v.programs, sources := v.sources } ∧
    v.tours = s.tours.set n { s.tours[n] with gallerySet := set } ∧
    (∀ p : ProgNo, tourOf p = n → v.programs[p].state = .active →
      v.programs[p].overlayAnn = chosenOverlay v p) ∧
    (∀ h : PortNo, h ≠ g → v.galleries[h] = s.galleries[h]) ∧
    OverlaysFollow s v ∧ PortsKept s v ∧ NoticesGrow s v ∧
    v = { s with
          tours := v.tours, programs := v.programs, sources := v.sources, galleries := v.galleries
          ports := v.ports, notices := v.notices, noticeOverflow := v.noticeOverflow, log := v.log }

/-- A gallery joined a tour's set at the tail, with a demand arrival for every wanted program of the tour and
GUIDE_MOVED of change code 1 (R80, R82, R84). -/
def Joined (s t : State) (n : TourNo) (g : PortNo) : Prop :=
  ∃ v, SetBecame s v n g (s.tours[n].gallerySet ++ [g]) demandArrival ∧
    (∀ p : ProgNo, tourOf p = n → s.programs[p].wanted = true → ServedOrWaiting v p g) ∧
    t = queueNotice .guideMoved (some (BitVec.ofNat 16 n.val)) (some (BitVec.ofNat 16 g.val))
      (BitVec.ofNat 16 (16 + (s.tours[n].gallerySet.length + 1))) v

/-- A gallery left a tour's set, the others keeping their order, with a demand end for every wanted program of the
tour: none of them waits there, and a carrier that was SETTLING or LIVE for one is given up (R103 to R105).
GUIDE_MOVED has change code 2 (R81, R82, R84). -/
def LeftSet (s t : State) (n : TourNo) (g : PortNo) : Prop :=
  ∃ v, SetBecame s v n g (s.tours[n].gallerySet.filter (· ≠ g)) demandEnd ∧
    (∀ p : ProgNo, tourOf p = n → s.programs[p].wanted = true → isWaiting v.galleries[g] p = false) ∧
    t = queueNotice .guideMoved (some (BitVec.ofNat 16 n.val)) (some (BitVec.ofNat 16 g.val))
      (BitVec.ofNat 16 (32 + (s.tours[n].gallerySet.filter (· ≠ g)).length)) v

/-- A tour's set has fewer than three members, and its guide is not frozen (R80). -/
def HasRoomFor (s : State) (n : TourNo) : Prop :=
  s.tours[n].gallerySet.length < 3 ∧ ∃ i, s.tours[n].guide = some i ∧ s.guideFrozen[i] = false

/-- What follows when a record of guide `i` at `g` has become IN in `w`: its gallery joins the set of the tour
served, if it is no member and there is a place; else nothing more (R78, R80). -/
def CameIn (i : SourceSlot) (g : PortNo) (w t : State) : Prop :=
  (servedTour w i = none → t = w) ∧
    ∀ n, servedTour w i = some n →
      (HasRoomFor w n → g ∉ w.tours[n].gallerySet → Joined w t n g) ∧
      (¬ HasRoomFor w n ∨ g ∈ w.tours[n].gallerySet → t = w)

/-- A record with the level of an observation taken in and a new silence deadline (R75, R76). -/
def HearingRecord.after (s : State) (level : Nat) (x : HearingRecord) : HearingRecord :=
  { x with est8 := smooth x.est8 (min 127 level)
           silenceDeadline := some (s.clock + BitVec.ofNat 32 s.limits.silenceMs) }

/-- `e` makes room before `x`, by the keys of R74. -/
def GoesBefore (e x : HearingRecord) : Prop :=
  e.est8 < x.est8 ∨ (e.est8 = x.est8 ∧
    ((e.silenceDeadline = none ∧ x.silenceDeadline ≠ none) ∨
      (∃ a, e.silenceDeadline = some a ∧ ∃ b, x.silenceDeadline = some b ∧ earlier a b = true) ∨
      (e.silenceDeadline = x.silenceDeadline ∧ (e.slot < x.slot ∨ (e.slot = x.slot ∧ e.port < x.port)))))

/-- The table that a new record joins: the one it is, or without the OUT record that makes room (R74). -/
def MakesRoom (table kept : List HearingRecord) : Prop :=
  (table.length < 96 ∧ kept = table) ∨
    (96 ≤ table.length ∧ ∃ e ∈ table, e.comparator = .out ∧
      (∀ x ∈ table, x.comparator = .out → x ≠ e → GoesBefore e x) ∧
      kept = table.filter fun x => !(x.slot = e.slot ∧ x.port = e.port))

/-- The program's stored derivation is what R26 gives for it. -/
def Settled (s : State) (p : ProgNo) : Prop :=
  s.programs[p].wanted = isWanted s p ∧ (s.programs[p].state = .active ↔ toBeActive s p = true) ∧
    (s.programs[p].state ≠ .active → s.programs[p].state = restState s.programs[p])

/-- The operands of a WRITE_ENTRY that names one field (Table 11-8). -/
def writeOne (table index field value : Nat) : List Byte :=
  put8 table ++ put8 0 ++ put16 index ++ put8 1 ++ (put8 field ++ put32 value)

/-- The operands of a WRITE_ENTRY that names two fields (Table 11-8). -/
def writeTwo (table index field value field' value' : Nat) : List Byte :=
  put8 table ++ put8 0 ++ put16 index ++ put8 2 ++ (put8 field ++ put32 value) ++
    (put8 field' ++ put32 value')

/-- WRITE_ENTRY at the head of the queue is refused with this status, without effect (R151). -/
def WriteRefused (s : State) (p : PortNo) (rest : List Request) (tag : BitVec 16) (status : Status) : Prop :=
  exec .writeEntry s = .next (respond p (.response tag 2 status []) { s with requests := rest })

/-- WRITE_ENTRY at the head of the queue is taken and leaves `u`: the response carries the entry as it then stands
(R150, R153). -/
def WriteTaken (s u : State) (p : PortNo) (tag : BitVec 16) (table : Table) (index : Nat) : Prop :=
  exec .writeEntry s = .next (respond p (.response tag 2 .ok (entryResult u table index)) u)

/-- A control request at the head of the queue is answered so, without any effect but its response (R151). -/
def AnsweredAlone (c : Instr) (s : State) (p : PortNo) (rest : List Request) (f : TxFrame) : Prop :=
  exec c s = .next (respond p f { s with requests := rest })

/-! ### The overlay of a program (R69) -/

/-- The record holds an announcement that applies to the program: it is ON, and some zone of its set has a port of the
tour's gallery set as member (R69). -/
def AppliesTo (s : State) (p : ProgNo) (n : AnnNo) (a : Announcement) : Prop :=
  s.announcements[n] = some a ∧ a.state = .on ∧ ∃ z : ZoneNo, a.zones.getLsbD z.val = true ∧
    ∃ g ∈ s.tours[tourOf p].gallerySet, s.zones[z].members.getLsbD g.val = true

/-- A stamp lies before another (R174). -/
def StampFirst (a b : Option Clock) : Prop := ∃ x, a = some x ∧ ∃ y, b = some y ∧ earlier x y = true

/-- The first record is ranked before the second: higher priority, earlier start stamp, lower number (R69). -/
def RankedFirst (n : AnnNo) (a : Announcement) (m : AnnNo) (b : Announcement) : Prop :=
  b.priority < a.priority ∨ (a.priority = b.priority ∧
    (StampFirst a.startStamp b.startStamp ∨ (a.startStamp = b.startStamp ∧ n < m)))

/-! ### The order of ready pool and charge queue (R118, R137) -/

/-- The receiver is docked, and its record holds where and since when. -/
def Docked (s : State) (r : RecNo) : Prop :=
  ∃ d, s.receivers[r].data = some d ∧ d.place ≠ none ∧ d.dockStamp ≠ none

/-- The receiver is docked since less than 2^31 ms (R174, remark). -/
def DockedOfLate (s : State) (r : RecNo) : Prop :=
  ∃ d, s.receivers[r].data = some d ∧ d.place ≠ none ∧
    ∃ a, d.dockStamp = some a ∧ (s.clock - a).toNat < 2 ^ 31

/-- The earlier dock stamp, then the lower port, then the lower slot. -/
def DockedFirst (d e : ReceiverData) : Prop :=
  StampFirst d.dockStamp e.dockStamp ∨ (d.dockStamp = e.dockStamp ∧
    ∃ x, d.place = some x ∧ ∃ y, e.place = some y ∧ (x.1 < y.1 ∨ (x.1 = y.1 ∧ x.2 < y.2)))

/-- The order of the ready pool: the higher battery, then the one docked first (R118). -/
def PoolOrder (s : State) (x y : RecNo) : Prop :=
  ∃ d, s.receivers[x].data = some d ∧ ∃ e, s.receivers[y].data = some e ∧
    (e.battery < d.battery ∨ (d.battery = e.battery ∧ DockedFirst d e))

/-- The order of a charge queue: the critical class, then the one docked first (R137). -/
def ChargeOrder (s : State) (x y : RecNo) : Prop :=
  ∃ d, s.receivers[x].data = some d ∧ ∃ e, s.receivers[y].data = some e ∧
    ((d.battery < s.limits.critical ∧ s.limits.critical ≤ e.battery) ∨
      ((d.battery < s.limits.critical ↔ e.battery < s.limits.critical) ∧ DockedFirst d e))

/-- `new` is `old` with `x` put before the first member that goes after it. -/
def PutAt {α : Type} (goesBefore : α → α → Prop) (x : α) (old new : List α) : Prop :=
  ∃ n ≤ old.length, new = old.take n ++ x :: old.drop n ∧
    (∀ y ∈ old.take n, ¬ goesBefore x y) ∧ ∀ y ∈ (old.drop n).head?, goesBefore x y

/-- None of a list stands behind one that it goes before. -/
def InOrder {α : Type} (goesBefore : α → α → Prop) (list : List α) : Prop :=
  list.Pairwise fun x y => ¬ goesBefore y x

/-- What is in the pool after a receiver of rack `g` became DOCKED_READY, in a hub without outfit orders: the receiver
too, at its place, when the rack is online (R118). -/
def EnteredPool (w : State) (g : PortNo) (r : RecNo) (old new : List RecNo) : Prop :=
  (w.racks[g].online = true → PutAt (PoolOrder w) r old new) ∧ (w.racks[g].online = false → new = old)

/-- What is in the charge queue of a rack once a receiver has its place there: a receiver below 100 that is not
charging and not FAULTY stands at the place of its class when the rack is online, and no other does (R137). -/
def SettledInQueue (w : State) (g : PortNo) (r : RecNo) (d : ReceiverData) (old : List RecNo) : Prop :=
  (w.racks[g].online = true ∧ d.battery < 100 ∧ d.charging = false ∧ d.state ≠ .faulty →
    PutAt (ChargeOrder w) r (old.filter (· ≠ r)) w.racks[g].chargeQueue) ∧
  (w.racks[g].online = false ∨ 100 ≤ d.battery ∨ d.charging = true ∨ d.state = .faulty →
    w.racks[g].chargeQueue = old.filter (· ≠ r))

/-- A receiver takes a slot of a rack, in a hub without outfit orders: its record here and now, its place in the charge
queue, the grants that follow, and its place in the pool at the ready threshold (R128, R137, R138, R118). -/
def TookSlot (s t : State) (g : PortNo) (k : RackSlot) (r : RecNo) (id : BitVec 24) (level : Nat) : Prop :=
  let d : ReceiverData :=
    { id := id
      state := if s.limits.readyThreshold ≤ min 100 level then .dockedReady else .dockedCharging
      place := some (g, k), dockStamp := some s.clock, battery := min 100 level, charging := false
      keyedProgram := none, outfit := none, issueStamp := none, loanDeadline := none, unconfirmed := false }
  ∃ w, w = { s with
      receivers := s.receivers.set r ⟨some d, s.receivers[r].generation + 1⟩
      racks := s.racks.set g { s.racks[g] with
        slots := s.racks[g].slots.set k { s.racks[g].slots[k] with occupant := .receiver r }
        chargeQueue := w.racks[g].chargeQueue } } ∧
    SettledInQueue w g r d s.racks[g].chargeQueue ∧
    ∃ pool, t = { issueGrants g w with pool := pool } ∧
      (d.state = .dockedReady → EnteredPool w g r s.pool pool) ∧
      (d.state = .dockedCharging → pool = s.pool)

/-! ### The samples of a block (R46 to R48) -/

/-- What a concealed reader supplies (Table 3-5). -/
def concealed (x : Reader) : Block :=
  match x.conceal, x.prev with
  | .fresh, some b => Vector.ofFn fun i => b[i].sshiftRight 1
  | _, _ => zeroBlock

/-- What a reader supplies after its take: the entry's samples, zeros of a muted source, or its concealment (R16,
R47, R48). -/
def suppliedBy (s : State) (x : Reader) (i : SourceSlot) (answer : Option Entry) : Block :=
  match answer with
  | some e => if s.sources[i].mute then zeroBlock else e.samples
  | none => concealed x

end Machine

end Sys2Proof
end

