-- ==== Sys2Proof/Certificates/Slice0/Obligations.lean ====
section
/-! DEFINITION. The statements about the hub: each a `Prop`, with what the spec says of it. -/

open Sys2Proof Sys2Proof.Machine

/-! ### The queue of commands, time and safety -/

/-- A step runs the command at the front of the queue on the state with the queue's rest: the queue of commands is the
model's, and what a step does without one is log entry 1's. -/
def Obligations.StepRunsFrontCommand : Prop :=
  ∀ (s : State) (c : Instr) (rest : List Instr),
    step { s with pending := c :: rest } = exec c { s with pending := rest }

/-- Every command answers a next state: no event of the hub faults or is refused. It leaves the waiting commands as
they are, and no command but POWER_ON and POWER_LOSS moves the hub clock (R174). -/
def Obligations.EveryCommandAnswersAndKeepsTheClock : Prop :=
  ∀ (c : Instr) (s : State), ∃ t, exec c s = .next t ∧ t.pending = s.pending ∧
    (c ≠ .powerOn → (∀ stage offset, c ≠ .powerLoss stage offset) → t.clock = s.clock)

/-- A clock value lies before another when the distance from it on to the other is 1 to 2^31 − 1; at the distance 2^31
the smaller number is the earlier. With nothing to do the running hub lets one millisecond pass, and queues the expiry
of every deadline that the new clock value has reached (R174; log entries 1 and 2). -/
def Obligations.ClockAndItsDeadlines : Prop :=
  (∀ a b : Clock,
     (earlier a b = true ↔
       (1 ≤ (b - a).toNat ∧ (b - a).toNat ≤ 2 ^ 31 - 1) ∨ ((b - a).toNat = 2 ^ 31 ∧ a.toNat < b.toNat)) ∧
     earlier a a = false ∧ (a ≠ b → (earlier a b = true ↔ earlier b a = false))) ∧
  (∀ s : State, s.phase = .running → s.pending = [] → s.requests = [] → noticeReady s = false →
     ∃ t, step s = .next t ∧ t = { s with clock := s.clock + 1, pending := t.pending } ∧
       (∀ i, .lostDeadlineExpiry i ∈ t.pending ↔ t.due s.sources[i].lostDeadline = true) ∧
       (∀ p, .blockDeadlineExpiry p ∈ t.pending ↔ t.due s.programs[p].blockDeadline = true) ∧
       (∀ i g, .silenceDeadlineExpiry i g ∈ t.pending ↔
         ∃ r ∈ s.hearing, r.slot = i ∧ r.port = g ∧ t.due r.silenceDeadline = true) ∧
       (∀ i g, .leaveDeadlineExpiry i g ∈ t.pending ↔
         ∃ r ∈ s.hearing, r.slot = i ∧ r.port = g ∧ t.due r.leaveDeadline = true) ∧
       (∀ g c, .settleDeadlineExpiry g c ∈ t.pending ↔
         t.due s.galleries[g].carriers[c].settleDeadline = true) ∧
       (∀ g c, .parkDeadlineExpiry g c ∈ t.pending ↔
         t.due s.galleries[g].carriers[c].parkDeadline = true) ∧
       (∀ g, .mapRefreshDeadlineExpiry g ∈ t.pending ↔ t.due s.galleries[g].mapRefresh = true) ∧
       (∀ n, .endDeadlineExpiry n ∈ t.pending ↔
         t.due (s.announcements[n].bind (·.endDeadline)) = true) ∧
       (∀ n, .pendingDeadlineExpiry n ∈ t.pending ↔
         t.due (s.announcements[n].bind (·.pendingDeadline)) = true) ∧
       (∀ r, .loanDeadlineExpiry r ∈ t.pending ↔
         t.due (s.receivers[r].data.bind (·.loanDeadline)) = true) ∧
       (∀ g, .keyDeadlineExpiry g ∈ t.pending ↔ t.due s.racks[g].keyDeadline = true) ∧
       (∀ g, .inventoryDeadlineExpiry g ∈ t.pending ↔ t.due s.racks[g].inventoryDeadline = true))

/-! ### Invariants -/

/-- Right after power is applied the memory has its form, every queue and table keeps to its bound, and the notice
port has the DESK role. -/
def Obligations.InvariantsHoldAtReset : Prop :=
  MemoryOk State.reset ∧ QueuesOk State.reset ∧ TablesOk State.reset ∧ NoticePortOk State.reset

/-- Every step keeps the canonical form of the configuration memory, and the length of an image that is being saved
(R180). The form is the model's own: addresses rising, and no cell that reads as an unwritten byte (log entry 5). -/
def Obligations.EveryStepKeepsTheMemoryForm : Prop :=
  ∀ s t : State, MemoryOk s → step s = .next t → MemoryOk t

/-- Every step keeps the bounds of the request queue (R149), the notice queue (R163) and every transmit queue with its
audio frames (R171), and of the frame stores (R11), the hearing table (R72), the gallery sets (R80) and the outfit
orders (R119); and it keeps the notice port a port with the DESK role (R156, R157). -/
def Obligations.EveryStepKeepsTheBoundsAndTheNoticePort : Prop :=
  ∀ s t : State, step s = .next t →
    (QueuesOk s → QueuesOk t) ∧ (TablesOk s → TablesOk t) ∧ (NoticePortOk s → NoticePortOk t)

/-- Only the two writes, the load of an image and power touch limits, gains, zones and port roles: whatever frame,
report, deadline, other request or link event comes, RESTART among them, they stay (R162). -/
def Obligations.OnlyWritesLoadAndPowerTouchTheSettings : Prop :=
  ∀ (c : Instr) (s t : State), exec c s = .next t → c ≠ .writeEntry → c ≠ .condWrite → c ≠ .powerOn →
    (∀ stage offset, c ≠ .powerLoss stage offset) → c ≠ .configLoadComplete →
    (∀ stage offset, c = .ackTimeout stage offset → s.phase ≠ .loading) → SettingsKept s t

/-! ### Power, load and save -/

/-- POWER_ON: every table, queue and register takes its power-on value, the clock is 0 and the read of the image
begins (R175). POWER_LOSS: the hub is without power and holds nothing but its configuration memory (R176). Both leave
the memory its bytes when no save was running (log entries 9 and 10: the rest of the command queue and the model's
counter are kept). Without a valid image, and when a byte of the read is not acknowledged: the status is DEFAULTED,
every table that an image holds takes its defaults, HUB_STARTED is queued with detail 0, and nothing else changes
(R175). -/
def Obligations.PowerAndTheDefaults : Prop :=
  (∀ s : State,
     (∃ t, exec .powerOn s = .next t ∧
       t = { State.reset with memory := t.memory, freeCount := t.freeCount, pending := s.pending } ∧
       (s.saving = none → t.memory = s.memory ∧ t.freeCount = s.freeCount)) ∧
     ∀ (stage : SaveStage) (offset : Fin 436), s.phase ≠ .off →
       ∃ t, exec (.powerLoss stage offset) s = .next t ∧
         t = { State.reset with
               phase := .off, memory := t.memory, freeCount := t.freeCount, pending := s.pending } ∧
         (s.saving = none → t.memory = s.memory ∧ t.freeCount = s.freeCount)) ∧
  (∀ (s : State) (stage : SaveStage) (offset : Fin 436), s.phase = .loading →
     (imageValid s.memory = false → exec .configLoadComplete s = .next (queueNotice .hubStarted (some 2) none 0
       { s with
         phase := .running, configStatus := .defaulted, ports := Vector.ofFn Port.initial
         racks := Vector.replicate 12 Rack.initial, gains := State.reset.gains
         limits := Limits.initial, zones := Vector.replicate 8 ⟨0, 0⟩
         sources := Vector.replicate 64 Source.initial })) ∧
     exec (.ackTimeout stage offset) s = .next (queueNotice .hubStarted (some 2) none 0
       { s with
         phase := .running, configStatus := .defaulted, ports := Vector.ofFn Port.initial
         racks := Vector.replicate 12 Rack.initial, gains := State.reset.gains
         limits := Limits.initial, zones := Vector.replicate 8 ⟨0, 0⟩
         sources := Vector.replicate 64 Source.initial }))

/-- A loss of power before stage 3 of a save leaves no valid image: the next power-on finds it not valid and loads the
defaults (R176; what a save has written by then: log entries 6 and 7). -/
def Obligations.PowerLossBeforeStageThreeLoadsDefaults : Prop :=
  ∀ (s : State) (image : List Byte) (stage : SaveStage) (offset : Fin 436), MemoryOk s →
    s.phase = .running → s.saving = some image → stage ≠ .finish →
    ∃ t u v, exec (.powerLoss stage offset) s = .next t ∧ exec .powerOn t = .next u ∧
      exec .configLoadComplete u = .next v ∧ v.phase = .running ∧ v.configStatus = .defaulted ∧
      v.limits = Limits.initial ∧ v.gains = State.reset.gains ∧ v.ports = State.reset.ports

/-- CONFIG_LOAD_COMPLETE with a valid image: the status is LOADED, the five sections are loaded, and HUB_STARTED
follows (R175, R180). PORT: roles, a code above 3 being UNUSED, and grant limits clamped to 1 to 40, or both at their
defaults without a DESK port (R157). GAIN: clamped to 32767 (R49). LIMITS: each clamped to its range, the thresholds
at their defaults when join would not lie above leave (R155), the notice port the one named when it is DESK and else
the lowest DESK port (R156). ZONE: the members as held. SOURCE: an id unless it is 0, absent, beside a role code of
none of the three, or held by a lower slot (doubles are judged on the ids left after the other three: the model's
choice, log entry 24); role, gain step clamped to 15, and mute for any byte but 0; IDLE with an id, else UNUSED (R2).
Everything else is as it was. A valid image is one by R175 and R180, its length being at least 428: that a longer one
is valid too is the model's reading (log entry 25). -/
def Obligations.ValidImageIsLoaded : Prop :=
  ∀ s : State, s.phase = .loading → imageValid s.memory = true →
    let image := Memory.slice s.memory 0 436
    let code (i : SourceSlot) : Nat := byteAt image (118 + 5 * i.val)
    let id (i : SourceSlot) : Option (BitVec 16) :=
      if wordAt image (116 + 5 * i.val) = 0 ∨ wordAt image (116 + 5 * i.val) = 65535 ∨ code i = 0 ∨ 3 < code i
      then none else some (BitVec.ofNat 16 (wordAt image (116 + 5 * i.val)))
    let join := max 1 (min 127 (byteAt image 77))
    let leave := max 1 (min 127 (byteAt image 78))
    ∃ t, exec .configLoadComplete s = .next (queueNotice .hubStarted (some 1) none 0 t) ∧ NoticePortOk t ∧
      ((∃ q : PortNo, byteAt image (11 + 2 * q.val) = 3) → ∀ p : PortNo,
        t.ports[p] = { Port.initial p with role := t.ports[p].role } ∧
        (byteAt image (11 + 2 * p.val) ≤ 3 → t.ports[p].role.code = byteAt image (11 + 2 * p.val)) ∧
        (3 < byteAt image (11 + 2 * p.val) → t.ports[p].role = .unused) ∧
        t.racks[p] = { Rack.initial with grantLimit := max 1 (min 40 (byteAt image (12 + 2 * p.val))) }) ∧
      ((∀ q : PortNo, byteAt image (11 + 2 * q.val) ≠ 3) →
        t.ports = Vector.ofFn Port.initial ∧ t.racks = Vector.replicate 12 Rack.initial) ∧
      (∀ i : GainStep, t.gains[i].generation = 0 ∧
        t.gains[i].value = min 32767 (wordAt image (38 + 2 * i.val))) ∧
      t.limits =
        { sourceLostMs := max 100 (min 2000 (wordAt image 73)), mixSlackMs := max 1 (min 8 (byteAt image 75))
          pendingS := max 1 (min 30 (byteAt image 76))
          join := if leave < join then join else 40, leave := if leave < join then leave else 28
          leaveHoldS := min 15 (byteAt image 79), silenceMs := max 100 (min 2000 (wordAt image 80))
          settleMs := min 250 (byteAt image 82), parkS := min 60 (byteAt image 83)
          readyThreshold := max 50 (min 100 (byteAt image 84))
          loanMin := max 10 (min 720 (wordAt image 85)), critical := max 5 (min 40 (byteAt image 87))
          keyRetries := min 7 (byteAt image 88), noticePort := t.limits.noticePort
          noticeMask := BitVec.ofNat 18 (longAt image 90), generation := 0 } ∧
      (∀ p : PortNo, byteAt image 89 = p.val → t.ports[p].role = .desk → t.limits.noticePort = p) ∧
      ((∀ p : PortNo, byteAt image 89 = p.val → t.ports[p].role ≠ .desk) →
        ∀ p : PortNo, t.ports[p].role = .desk → t.limits.noticePort ≤ p) ∧
      (∀ z : ZoneNo, t.zones[z] = ⟨BitVec.ofNat 12 (wordAt image (97 + 2 * z.val)), 0⟩) ∧
      (∀ i : SourceSlot, t.sources[i] = { Source.initial with
          id := t.sources[i].id, role := t.sources[i].role
          gainStep := Fin.ofNat 16 (min 15 (byteAt image (119 + 5 * i.val)))
          mute := byteAt image (120 + 5 * i.val) != 0
          state := if t.sources[i].id = none then .unused else .idle } ∧
        (1 ≤ code i → code i ≤ 3 → t.sources[i].role.code = code i) ∧
        ((∀ j : SourceSlot, j < i → id j ≠ id i) → t.sources[i].id = id i) ∧
        (∀ j : SourceSlot, j < i → id j = id i → t.sources[i].id = none)) ∧
      t = { s with
            phase := .running, configStatus := .loaded, ports := t.ports, racks := t.racks
            gains := t.gains, limits := t.limits, zones := t.zones, sources := t.sources }

/-- What a save writes, a load restores: with every setting in its range, the image of a hub, held in the memory of
another, is valid and gives that other hub the same roles, grant limits, gains, limits, zones and source settings
(R175, R176, R180; the snapshot is kept as its bytes: log entry 32). -/
def Obligations.SavedImageLoadsBack : Prop :=
  ∀ s u : State, SettingsInRange s → MemoryOk u → u.phase = .loading →
    u.memory = Memory.writeAll [] 0 (imageOf s) →
    ∃ t, exec .configLoadComplete u = .next t ∧ t.configStatus = .loaded ∧
      t.limits = { s.limits with generation := 0 } ∧
      (∀ i : GainStep, t.gains[i].value = s.gains[i].value) ∧
      (∀ z : ZoneNo, t.zones[z].members = s.zones[z].members) ∧
      (∀ p : PortNo, t.ports[p].role = s.ports[p].role ∧ t.racks[p].grantLimit = s.racks[p].grantLimit) ∧
      ∀ i : SourceSlot, t.sources[i].id = s.sources[i].id ∧ t.sources[i].role = s.sources[i].role ∧
        t.sources[i].gainStep = s.sources[i].gainStep ∧ t.sources[i].mute = s.sources[i].mute

/-- The end of a save (R176). CONFIG_SAVE_COMPLETE: the memory holds what was read back, behind the snapshot's marker
wherever the first difference lies, for a failure found at stage 3 leaves a marked image; the save state is IDLE, and
the notice is CONFIG_SAVED with length and checksum when that is the snapshot, CONFIG_SAVE_FAILED with stage 3, cause
2 and the first differing offset when it is not (log entry 8). ACK_TIMEOUT: the save state is IDLE, CONFIG_SAVE_FAILED
carries stage, cause 1 and offset, and the image is not valid after a failure at stage 1 or 2, and marked after one at
stage 3 (log entries 6 and 37). -/
def Obligations.SaveEndsWithItsNotice : Prop :=
  ∀ (s : State) (image : List Byte), s.phase = .running → s.saving = some image → MemoryOk s →
    (∀ back : List Byte, back.length = 436 →
      ∃ m, Memory.slice m 0 436 = image.take 4 ++ back.drop 4 ∧
        (∀ a, 436 ≤ a → Memory.read m a = Memory.read s.memory a) ∧
        (back = image → exec (.configSaveComplete back) s = .next (queueNotice .configSaved (some 436) none
          (BitVec.ofNat 16 (wordAt image 6)) { s with memory := m, saving := none })) ∧
        (∀ n, back.take n = image.take n → back[n]? ≠ image[n]? →
          exec (.configSaveComplete back) s = .next (queueNotice .configSaveFailed (some 3) (some 2)
            (BitVec.ofNat 16 n) { s with memory := m, saving := none }))) ∧
    ∀ (stage : SaveStage) (offset : Fin 436),
      ∃ m, exec (.ackTimeout stage offset) s = .next (queueNotice .configSaveFailed
          (some (BitVec.ofNat 16 (stageNumber stage))) (some 1) (BitVec.ofNat 16 offset.val)
          { s with memory := m, freeCount := s.freeCount + 1, saving := none }) ∧
        (stage ≠ .finish → imageValid m = false) ∧
        (stage = .finish → Memory.slice m 0 4 = image.take 4)

/-! ### Frames, notices and ports -/

/-- The envelope of R177: what the hub sends opens to its kind and payload, and nothing opens that is not its kind,
the length of its payload, its payload and their frame check. -/
def Obligations.EnvelopeOpensToItsPayload : Prop :=
  (∀ (kind : Byte) (payload : List Byte), payload.length ≤ 1024 →
    openEnvelope (envelope kind payload) = some (kind, payload)) ∧
  ∀ (frame : List Byte) (kind : Byte) (payload : List Byte),
    openEnvelope frame = some (kind, payload) → payload.length ≤ 1024 ∧ frame = envelope kind payload

/-- A frame handed to a transmit queue: appended when the link is UP, fewer than 16 frames wait and, for an audio
frame, fewer than 12 of them are audio; dropped into the delivery log otherwise (R171, R173). While another frame is
on the line, the queue is the old one with the frame behind it, and a free line takes it at once (log entry 13); no
other port changes. FRAME_SENT frees the line, and the transmitter of an UP port takes the oldest non-audio frame, or
the oldest audio frame when there is no other; with an empty queue the line stays free (R172). -/
def Obligations.TransmitQueueTakesDropsAndSends : Prop :=
  (∀ (s : State) (p : PortNo) (f : TxFrame),
     (s.ports[p].link = .up → s.ports[p].queue.length < 16 →
       (f.isAudio = true → audioCount s.ports[p].queue < 12) →
         handFrame p f s = { s with ports := (handFrame p f s).ports } ∧
         (∀ q : PortNo, q ≠ p → (handFrame p f s).ports[q] = s.ports[q]) ∧
         (∀ x, s.ports[p].line = some x →
           (handFrame p f s).ports[p] = { s.ports[p] with queue := s.ports[p].queue ++ [f] }) ∧
         (s.ports[p].line = none → s.ports[p].queue = [] →
           (handFrame p f s).ports[p] = { s.ports[p] with line := some f })) ∧
     (s.ports[p].link = .down ∨ 16 ≤ s.ports[p].queue.length ∨
         (f.isAudio = true ∧ 12 ≤ audioCount s.ports[p].queue) →
       (∀ x, s.log.captured = some x →
         handFrame p f s = { s with log := ⟨some x, min 65535 (s.log.count + 1)⟩ }) ∧
       (s.log.captured = none → handFrame p f s = queueNotice .deliveryError
         (some (BitVec.ofNat 16 p.val)) f.subject (f.kindCode.setWidth 16)
         { s with log := ⟨some ⟨p, f.kindCode, f.subject, s.clock⟩, 1⟩ }))) ∧
  (∀ (s : State) (p : PortNo) (x : TxFrame), s.phase = .running → s.ports[p].link = .up →
     s.ports[p].line = some x →
     (s.ports[p].queue = [] →
       exec (.frameSent p) s = .next (s.modPort p fun e => { e with line := none })) ∧
     (∀ (front : List TxFrame) (f : TxFrame) (back : List TxFrame),
       s.ports[p].queue = front ++ f :: back → (∀ y ∈ front, y.isAudio = true) → f.isAudio = false →
       exec (.frameSent p) s = .next (s.modPort p fun e =>
         { e with line := some f, queue := front ++ back })) ∧
     (∀ (f : TxFrame) (back : List TxFrame), s.ports[p].queue = f :: back →
       (∀ y ∈ f :: back, y.isAudio = true) →
       exec (.frameSent p) s = .next (s.modPort p fun e => { e with line := some f, queue := back })))

/-- LINK_UP, by role (R169). UNUSED or DESK: the link is UP with an empty queue, and nothing else changes. GALLERY:
the carrier map goes on the line, and the next refresh is one second from now (R108, R112). RACK: the INVENTORY order
goes on the line with a deadline of 5 seconds, unregistered occupants leave, and the receivers docked there are
unconfirmed (R146). The free line takes the frame at once (log entry 13). -/
def Obligations.LinkUpActsByRole : Prop :=
  ∀ (s : State) (p : PortNo), s.phase = .running → s.ports[p].link = .down →
    (s.ports[p].role = .unused ∨ s.ports[p].role = .desk → exec (.linkUp p) s =
      .next (s.modPort p fun e => { e with link := .up, queue := [], line := none })) ∧
    (s.ports[p].role = .gallery → exec (.linkUp p) s = .next ((s.modPort p fun e =>
      { e with
        link := .up, queue := [], line := some (.carrierMap ((fins 8).map fun c =>
          (s.galleries[p].carriers[c].state, s.galleries[p].carriers[c].program))) }).modGallery p
      fun e => { e with mapRefresh := some (s.clock + 1000) })) ∧
    (s.ports[p].role = .rack → ∃ t, exec (.linkUp p) s = .next t ∧
      t = { s with ports := t.ports, racks := t.racks, receivers := t.receivers } ∧
      t.ports[p] = { s.ports[p] with link := .up, queue := [], line := some (.order .inventory) } ∧
      t.racks[p] = { s.racks[p] with
        inventory := true, inventoryDeadline := some (s.clock + 5000), slots := t.racks[p].slots } ∧
      (∀ k : RackSlot, t.racks[p].slots[k] =
        if s.racks[p].slots[k].occupant = .unregistered then ⟨.empty, false⟩ else s.racks[p].slots[k]) ∧
      (∀ q : PortNo, q ≠ p → t.ports[q] = s.ports[q] ∧ t.racks[q] = s.racks[q]) ∧
      ∀ r : RecNo, t.receivers[r].generation = s.receivers[r].generation ∧
        t.receivers[r].data = s.receivers[r].data.map fun d =>
          if d.place.map (·.1) = some p then { d with unconfirmed := true } else d)

/-- LINK_DOWN of a DESK port: the link is DOWN, its frames are discarded, its waiting requests leave the request queue
unanswered, and LINK_DOWN carries role and number of discarded frames; an UNUSED port sends no notice (R150, R168). Of
a GALLERY port: no hearing record of the port is left, the port is in no gallery set, its carriers are FREE with no
wait list and no map refresh deadline, and its frames are gone; LINK_DOWN with role 1 and their number comes last; the
settings and the fleet stay (R88, R111, R168). -/
def Obligations.LinkDownPurgesADeskAndFreesAGallery : Prop :=
  (∀ (s : State) (p : PortNo), s.phase = .running → s.ports[p].link = .up →
     (s.ports[p].role = .desk → exec (.linkDown p) s = .next (queueNotice .linkDown
       (some (BitVec.ofNat 16 p.val)) (some 3) (BitVec.ofNat 16 s.ports[p].queue.length)
       { s with
         ports := s.ports.set p { s.ports[p] with link := .down, queue := [], line := none }
         requests := s.requests.filter fun r => r.port ≠ p })) ∧
     (s.ports[p].role = .unused → exec (.linkDown p) s = .next (s.modPort p fun e =>
       { e with link := .down, queue := [], line := none }))) ∧
  (∀ (s : State) (p : PortNo), s.phase = .running → s.ports[p].link = .up → s.ports[p].role = .gallery →
     ∃ t x, exec (.linkDown p) s = .next t ∧ t = queueNotice .linkDown (some (BitVec.ofNat 16 p.val))
         (some 1) (BitVec.ofNat 16 s.ports[p].queue.length) x ∧
       NoticesGrow s x ∧ x.limits = s.limits ∧ x.clock = s.clock ∧ SettingsKept s t ∧
       t.ports[p] = { s.ports[p] with link := .down, queue := [], line := none } ∧
       t.hearing = s.hearing.filter (fun r => r.port ≠ p) ∧
       (∀ n : TourNo, p ∉ t.tours[n].gallerySet) ∧
       t.galleries[p] = Gallery.initial ∧
       t.receivers = s.receivers ∧ t.racks = s.racks ∧ t.pool = s.pool ∧ t.outfits = s.outfits ∧
       t.requests = s.requests ∧ t.announcements = s.announcements)

/-- LINK_DOWN of a RACK port (R145, R168): the rack is offline with no inventory, grants, queues, order in flight or
abandoned orders; none of its receivers is in the ready pool, charging or KEYING. Each KEYING one is DOCKED_READY with
its slot owing an UNKEY, S of its outfit order falls by one, and selection then runs once from the pool that is left.
RACK_OFFLINE carries the port and the number of slots that hold a receiver; LINK_DOWN follows with port, role 2 and
the number of discarded frames, and then the key orders that selection placed are sent. No other port changes its
link, role or generation, and the settings stay. -/
def Obligations.LinkDownOfRackPutsItOffline : Prop :=
  ∀ (s : State) (p : PortNo), s.phase = .running → s.ports[p].link = .up → s.ports[p].role = .rack →
    ∃ t x, exec (.linkDown p) s = .next t ∧
      WentOffline { s with ports := s.ports.set p { s.ports[p] with link := .down, queue := [], line := none } }
        x p ∧
      t = sendKeys (queueNotice .linkDown (some (BitVec.ofNat 16 p.val)) (some 2)
        (BitVec.ofNat 16 s.ports[p].queue.length) x) ∧ SettingsKept s t ∧
      t.ports[p] = { s.ports[p] with link := .down, queue := [], line := none } ∧
      (∀ q : PortNo, q ≠ p → t.ports[q].link = s.ports[q].link ∧ t.ports[q].role = s.ports[q].role ∧
        t.ports[q].generation = s.ports[q].generation) ∧
      t.racks[p] = { Rack.initial with
        slots := t.racks[p].slots, grantLimit := s.racks[p].grantLimit
        generation := s.racks[p].generation } ∧
      (∀ k : RackSlot, t.racks[p].slots[k].occupant = s.racks[p].slots[k].occupant) ∧
      (∀ (r : RecNo) (d : ReceiverData), t.receivers[r].data = some d → d.place.map (·.1) = some p →
        r ∉ t.pool ∧ d.charging = false ∧ d.state ≠ .keying) ∧
      t.tours = s.tours ∧ t.programs = s.programs ∧ t.sources = s.sources ∧ t.hearing = s.hearing ∧
      t.requests = s.requests ∧ t.galleries = s.galleries

/-- CONTROL_REQUEST on a DESK port: appended to the request queue, or answered BUSY with its tag and kind echoed when
8 are queued (R149). -/
def Obligations.ControlRequestQueuesOrAnswersBusy : Prop :=
  ∀ (s : State) (p : PortNo) (payload : List Byte), PortIs s p .desk → 3 ≤ payload.length →
    payload.length ≤ 1024 →
    (s.requests.length < 8 → exec (.controlRequest p (envelope 0x06 payload)) s =
      .next { s with requests := s.requests ++ [⟨p, payload⟩] }) ∧
    (8 ≤ s.requests.length → exec (.controlRequest p (envelope 0x06 payload)) s =
      .next (handFrame p (.response (BitVec.ofNat 16 (wordAt payload 0)) (payload.getD 2 0) .busy []) s))

/-- A notice is queued: not when its kind is disabled; discarded with the overflow flag when 16 wait; appended with
the clock as stamp otherwise; and nothing else changes (R163, R165). NOTICE_SEND: the head notice leaves to the notice
port when that is UP and has room, behind the waiting frames, or on its line when the line is free (R172; log entry
13); it is never dropped. When the port is DOWN or full nothing changes (R164). -/
def Obligations.NoticesAreQueuedAndSent : Prop :=
  (∀ (s : State) (k : NoticeKind) (a b : Option (BitVec 16)) (d : BitVec 16),
     (s.limits.noticeMask.getLsbD (k.code - 1) = false → queueNotice k a b d s = s) ∧
     (s.limits.noticeMask.getLsbD (k.code - 1) = true → 16 ≤ s.notices.length →
       queueNotice k a b d s = { s with noticeOverflow := true }) ∧
     (s.limits.noticeMask.getLsbD (k.code - 1) = true → s.notices.length < 16 →
       queueNotice k a b d s = { s with notices := s.notices ++ [⟨k, s.clock, a, b, d⟩] })) ∧
  (∀ (s : State) (n : Notice) (rest : List Notice), s.phase = .running → s.notices = n :: rest →
     (s.ports[s.limits.noticePort].link = .up → s.ports[s.limits.noticePort].queue.length < 16 →
       ∃ t, exec .noticeSend s = .next t ∧ t = { s with notices := rest, ports := t.ports } ∧
         (∀ q : PortNo, q ≠ s.limits.noticePort → t.ports[q] = s.ports[q]) ∧
         (∀ x, s.ports[s.limits.noticePort].line = some x → t.ports[s.limits.noticePort] =
           { s.ports[s.limits.noticePort] with
             queue := s.ports[s.limits.noticePort].queue ++ [.notice n] }) ∧
         (s.ports[s.limits.noticePort].line = none → s.ports[s.limits.noticePort].queue = [] →
           t.ports[s.limits.noticePort] =
             { s.ports[s.limits.noticePort] with line := some (.notice n) })) ∧
     (s.ports[s.limits.noticePort].link = .down ∨ 16 ≤ s.ports[s.limits.noticePort].queue.length →
       exec .noticeSend s = .next s))

/-! ### Sources and frame stores -/

/-- The classification of R4 (Table 1-2): accepted with no newest sequence and at a distance of 1 to 127; duplicate at
distance 0, and at any larger distance when an entry of the sequence is present; late otherwise. -/
def Obligations.VoiceFrameIsClassified : Prop :=
  ∀ (r : Source) (seq : Seq),
    (r.newest = none → classify r seq = .accepted) ∧
    ∀ n : Seq, r.newest = some n →
      (seq = n → classify r seq = .duplicate) ∧
      (1 ≤ (seq - n).toNat → (seq - n).toNat ≤ 127 → classify r seq = .accepted) ∧
      (128 ≤ (seq - n).toNat → (∃ e ∈ r.store, e.seq = seq) → classify r seq = .duplicate) ∧
      (128 ≤ (seq - n).toNat → (∀ e ∈ r.store, e.seq ≠ seq) → classify r seq = .late)

/-- Every frame's samples are converted as R8 says: two's complement with the more significant byte first for S16B and
second for S16L, and (b − 128) × 256 for U8. The steps of R11 place its entry as the newest: the oldest entries go up
to the first that lies no more than 127 behind, of four left the oldest goes, and no other entry is lost or moved. The
readers of a source are the ACTIVE programs of R12, each once. The removal rule of R14, in any state: the oldest
entries go as long as every reader's cursor has passed them, 0 to 127 behind it; the first that some reader has not
passed stays, and all behind it; with no reader nothing goes. A take by sequence, of the oldest entry after the
cursor, or of the newest entry finds it or none (R13). One that finds an entry moves the reader's cursor to it, and
the rule is applied; one that finds none conceals, the conceal state taking its step of Table 3-5 (R48). The cursor is
that of the field bound to the source, the overlay's where an overlay is bound to it (R38; of two bound fields: log
entry 17). -/
def Obligations.FramesAreConvertedPlacedAndRemoved : Prop :=
  (∀ (bytes : List Byte) (i : Fin 64), bytes.length = 128 →
    ((convertSamples .s16b bytes)[i]).toNat = byteAt bytes (2 * i.val) * 256 + byteAt bytes (2 * i.val + 1) ∧
    ((convertSamples .s16l bytes)[i]).toNat = byteAt bytes (2 * i.val + 1) * 256 + byteAt bytes (2 * i.val) ∧
    ((convertSamples .u8 bytes)[i]).toInt = ((byteAt bytes i.val : Int) - 128) * 256) ∧
  (∀ (e : Entry) (store : List Entry), store.length ≤ 4 →
     placeEntry e store = (placeEntry e store).dropLast ++ [e] ∧
     (placeEntry e store).dropLast <:+ store ∧ (placeEntry e store).length ≤ 4 ∧
     ∀ old kept : List Entry, store = old ++ kept → (∀ x ∈ old, 127 < (e.seq - x.seq).toNat) →
       (∀ x ∈ kept.head?, (e.seq - x.seq).toNat ≤ 127) →
       (kept.length < 4 → placeEntry e store = kept ++ [e]) ∧
       (kept.length = 4 → placeEntry e store = kept.drop 1 ++ [e])) ∧
  ∀ (s : State) (i : SourceSlot),
    let reads (q : ProgNo) : Prop := s.programs[q].state = .active ∧
      ((s.programs[q].mode = .guide ∧ guideOf s q = some i) ∨
        (s.programs[q].mode = .interpreter ∧
          (s.programs[q].interpreter = some i ∨ guideOf s q = some i)) ∨
        (s.programs[q].mode = .linked ∧ guideOf s q = some i) ∨ overlaySource s q = some i)
    let passed (e : Entry) (q : ProgNo) : Prop := ∃ c, cursorOn s i q = some c ∧ (c - e.seq).toNat ≤ 127
    (∀ q : ProgNo, q ∈ readersOf s i ↔ reads q) ∧ (readersOf s i).Nodup ∧
    (∀ q : ProgNo,
      (overlaySource s q = some i → cursorOn s i q = s.programs[q].overlay.cursor) ∧
      (overlaySource s q ≠ some i → leadSource s q ≠ some i → floorSource s q = some i →
        cursorOn s i q = s.programs[q].floor.cursor) ∧
      (overlaySource s q ≠ some i → floorSource s q ≠ some i → leadSource s q = some i →
        cursorOn s i q = s.programs[q].lead.cursor)) ∧
    ((∀ q : ProgNo, ¬ reads q) → applyRemoval i s = s) ∧
    (∀ gone kept : List Entry, s.sources[i].store = gone ++ kept → (∃ q : ProgNo, reads q) →
      (∀ e ∈ gone, ∀ q : ProgNo, reads q → passed e q) →
      (∀ e ∈ kept.head?, ∃ q : ProgNo, reads q ∧ ¬ passed e q) →
      applyRemoval i s = { s with sources := s.sources.set i { s.sources[i] with store := kept } }) ∧
    ∀ (p : ProgNo) (e : Entry),
      let samples := if s.sources[i].mute then zeroBlock else e.samples
      let taken : Reader := ⟨some e.seq, .fresh, some samples⟩
      answerTake p .lead i (some e) s =
        (applyRemoval i (s.modProgram p fun r => { r with lead := taken }), samples) ∧
      answerTake p .floor i (some e) s =
        (applyRemoval i (s.modProgram p fun r => { r with floor := taken }), samples) ∧
      answerTake p .overlay i (some e) s =
        (applyRemoval i (s.modProgram p fun r => { r with overlay := taken }), samples) ∧
      (let missing (x : Reader) : Reader := { x with conceal := match x.conceal with
         | .fresh => .halved
         | .halved | .silent => .silent }
       answerTake p .lead i none s = (s.modProgram p fun r => { r with lead := missing r.lead },
         concealed s.programs[p].lead) ∧
       answerTake p .floor i none s = (s.modProgram p fun r => { r with floor := missing r.floor },
         concealed s.programs[p].floor) ∧
       answerTake p .overlay i none s = (s.modProgram p fun r => { r with overlay := missing r.overlay },
         concealed s.programs[p].overlay)) ∧
      takeNewest s.sources[i].store = s.sources[i].store.getLast? ∧
      takeOldestAfter s.sources[i].store none = s.sources[i].store.head? ∧
      ∀ c : Seq,
        ((∀ x ∈ s.sources[i].store, x.seq ≠ c) → takeBySequence s.sources[i].store c = none) ∧
        ((∀ x ∈ s.sources[i].store, ¬ (1 ≤ (x.seq - c).toNat ∧ (x.seq - c).toNat ≤ 127)) →
          takeOldestAfter s.sources[i].store (some c) = none) ∧
        ∀ front back : List Entry, s.sources[i].store = front ++ e :: back →
          (e.seq = c → (∀ x ∈ front, x.seq ≠ c) → takeBySequence s.sources[i].store c = some e) ∧
          (1 ≤ (e.seq - c).toNat → (e.seq - c).toNat ≤ 127 →
            (∀ x ∈ front, ¬ (1 ≤ (x.seq - c).toNat ∧ (x.seq - c).toNat ≤ 127)) →
            takeOldestAfter s.sources[i].store (some c) = some e)

/-- A voice frame of an unknown format does nothing; one whose id no record holds sets the last unknown source, but
for id 65535 (R3). A duplicate or late frame leaves stores and sources as they are (R6): on a DESK port, or from a
source that is not GUIDE, it changes nothing; from a guide on a GALLERY port it is a hearing observation, whatever
that moves (R73, R78): among them, an OUT record for a pair that has none while the table has room (R74), and a level
that moves no comparator, which smooths the record and renews its silence deadline (R75, R76). -/
def Obligations.DiscardedVoiceFrameIsNotedOrHeard : Prop :=
  (∀ (s : State) (p : PortNo) (id : BitVec 16) (seq : Seq) (level format : Nat) (samples : List Byte),
     PortIs s p .gallery ∨ PortIs s p .desk → samples.length = 128 → format < 256 →
     (format = 0 ∨ 3 < format → exec (.voiceFrame p (voiceFrame id seq level format samples)) s = .next s) ∧
     (1 ≤ format → format ≤ 3 → (∀ i : SourceSlot, s.sources[i].id ≠ some id) →
       exec (.voiceFrame p (voiceFrame id seq level format samples)) s =
         .next (if id = 0xFFFF then s else { s with lastUnknown := some id }))) ∧
  (∀ (s : State) (p : PortNo) (i : SourceSlot) (id : BitVec 16) (seq n : Seq) (level format : Nat)
     (samples : List Byte), samples.length = 128 → 1 ≤ format → format ≤ 3 → level < 256 →
     HoldsId s id i → s.sources[i].newest = some n → seq = n ∨ 128 ≤ (seq - n).toNat →
     (PortIs s p .desk ∨ (PortIs s p .gallery ∧ s.sources[i].role ≠ .guide) →
       exec (.voiceFrame p (voiceFrame id seq level format samples)) s = .next s) ∧
     (PortIs s p .gallery → s.sources[i].role = .guide →
       exec (.voiceFrame p (voiceFrame id seq level format samples)) s = .next (observe i p level s) ∧
       (hearingOf s i p = none → s.hearing.length < 96 → min 127 level < s.limits.join →
         exec (.voiceFrame p (voiceFrame id seq level format samples)) s =
           .next { s with hearing := insertBefore keyBefore ⟨i, p, min 127 level * 8, .out, none,
             some (s.clock + BitVec.ofNat 32 s.limits.silenceMs), none, false⟩ s.hearing }) ∧
       ∀ r, hearingOf s i p = some r → r.frozen = false →
         (r.comparator = .out ∧ smooth r.est8 (min 127 level) / 8 < s.limits.join) ∨
           (r.comparator = .inside ∧ s.limits.leave ≤ smooth r.est8 (min 127 level) / 8) →
         exec (.voiceFrame p (voiceFrame id seq level format samples)) s =
           .next { s with hearing := s.hearing.map fun x => if x.slot = i ∧ x.port = p then
             { x with est8 := smooth x.est8 (min 127 level)
                      silenceDeadline := some (s.clock + BitVec.ofNat 32 s.limits.silenceMs) } else x }))

/-- An accepted voice frame: the source is LIVE with the frame's sequence as newest and a new lost deadline; its store
is what R11 places, short at most of oldest entries. The change of state comes first: SOURCE_BACK for a source that
was LOST, then all that it hands on (R10, in the order of log entry 15): voice conditions and paces, announcements of
the source that were PENDING become ON with overlays chosen anew (R66), and the records of a LOST guide thaw (R86).
The mix engine is then told of the entry, whether the source was LIVE before, IDLE or LOST. Every other source loses
at most oldest entries; settings, fleet, requests and last unknown source stay, and so do the hearing records of any
other source. From a guide on a GALLERY port the frame is last a hearing observation, whatever that moves (R5, R7,
R11, R73; log entry 16). -/
def Obligations.AcceptedVoiceFrameIsTakenIn : Prop :=
  ∀ (s : State) (p : PortNo) (i : SourceSlot) (id : BitVec 16) (seq : Seq) (level format : Nat)
    (f : SampleFormat) (samples : List Byte),
    PortIs s p .desk ∨ PortIs s p .gallery → samples.length = 128 → level < 256 →
    HoldsId s id i → classify s.sources[i] seq = .accepted → format < 256 →
    sampleFormatOf format = some f →
    ∃ t, exec (.voiceFrame p (voiceFrame id seq level format samples)) s =
        .next (if s.sources[i].role = .guide ∧ s.ports[p].role = .gallery then observe i p level t else t) ∧
      t.sources[i] = { s.sources[i] with
        state := .live, newest := some seq
        lostDeadline := some (s.clock + BitVec.ofNat 32 s.limits.sourceLostMs)
        store := t.sources[i].store } ∧
      t.sources[i].store <:+ placeEntry ⟨seq, convertSamples f samples, s.clock⟩ s.sources[i].store ∧
      (∀ j : SourceSlot, j ≠ i → t.sources[j] = { s.sources[j] with store := t.sources[j].store } ∧
        t.sources[j].store <:+ s.sources[j].store) ∧
      NoticesGrow s t ∧ PortsKept s t ∧
      (s.sources[i].state = .lost → s.limits.enabled .sourceBack = true → s.notices.length < 16 →
        s.notices ++ [⟨.sourceBack, s.clock, some (BitVec.ofNat 16 i.val), some id,
          BitVec.ofNat 16 seq.toNat⟩] <+: t.notices) ∧
      (s.sources[i].state ≠ .lost ∨ s.sources[i].role ≠ .guide →
        t.hearing = s.hearing ∧ t.guideFrozen = s.guideFrozen) ∧
      (s.sources[i].state = .live → t = entryArrived i seq { s with
        sources := s.sources.set i { s.sources[i] with
          newest := some seq
          lostDeadline := some (s.clock + BitVec.ofNat 32 s.limits.sourceLostMs)
          store := placeEntry ⟨seq, convertSamples f samples, s.clock⟩ s.sources[i].store } }) ∧
      (s.sources[i].state ≠ .live →
        let w : State := { s with
          sources := s.sources.set i { s.sources[i] with
            state := .live, newest := some seq
            lostDeadline := some (s.clock + BitVec.ofNat 32 s.limits.sourceLostMs)
            store := placeEntry ⟨seq, convertSamples f samples, s.clock⟩ s.sources[i].store } }
        (s.sources[i].state ≠ .lost → t = entryArrived i seq (handOnLive i false w)) ∧
        (s.sources[i].state = .lost → t = entryArrived i seq (handOnLive i true
          (queueNotice .sourceBack (some (BitVec.ofNat 16 i.val)) (some id)
            (BitVec.ofNat 16 seq.toNat) w)))) ∧
      (∀ n : AnnNo, t.announcements[n] = s.announcements[n].map fun a =>
        if s.sources[i].state ≠ .live ∧ a.slot = i ∧ a.state = .waiting then { a with
          state := .on, startStamp := some s.clock, pendingDeadline := none
          endDeadline := some (s.clock + BitVec.ofNat 32 (a.duration * 1000)) } else a) ∧
      (∀ (n : AnnNo) (a : Announcement), s.sources[i].state ≠ .live → s.announcements[n] = some a →
        a.slot = i → a.state = .waiting →
        ∀ q : ProgNo, t.programs[q].state = .active → t.programs[q].overlayAnn = chosenOverlay t q) ∧
      (s.sources[i].state = .lost → s.sources[i].role = .guide → ∃ w,
        w.hearing = s.hearing ∧ w.limits = s.limits ∧ w.clock = s.clock ∧ w.guideFrozen = s.guideFrozen ∧
        (∀ n : TourNo, w.tours[n] = { s.tours[n] with
          guideFrozen := if s.tours[n].state = .opened ∧ s.tours[n].guide = some i then false
            else s.tours[n].guideFrozen }) ∧
        t.hearing = (thawGuide i w).hearing ∧ t.tours = (thawGuide i w).tours ∧
        t.guideFrozen = (thawGuide i w).guideFrozen) ∧
      SettingsKept s t ∧ t.receivers = s.receivers ∧ t.racks = s.racks ∧ t.pool = s.pool ∧
      t.outfits = s.outfits ∧ t.requests = s.requests ∧ t.lastUnknown = s.lastUnknown

/-- The lost deadline of a LIVE source expires: it is LOST, its store empty, its newest sequence and lost deadline
absent; SOURCE_LOST comes first with the sequence it had; a guide's hearing records freeze with no deadlines, and no
other source's change; the announcements of the source that were ON end, each ACTIVE program then having the overlay
of R69 or none, and every other announcement stays; the settings, the fleet and the requests stay (R9, R10, R15, R68,
R85). -/
def Obligations.LostDeadlineMakesTheSourceLost : Prop :=
  ∀ (s : State) (i : SourceSlot), s.phase = .running → s.sources[i].state = .live →
    s.due s.sources[i].lostDeadline = true →
    ∃ t, exec (.lostDeadlineExpiry i) s = .next t ∧
      t.sources[i] = { s.sources[i] with state := .lost, newest := none, lostDeadline := none, store := [] } ∧
      (∀ j : SourceSlot, j ≠ i → t.sources[j] = { s.sources[j] with store := t.sources[j].store } ∧
        t.sources[j].store <:+ s.sources[j].store) ∧
      (s.limits.enabled .sourceLost = true → s.notices.length < 16 →
        s.notices ++ [⟨.sourceLost, s.clock, some (BitVec.ofNat 16 i.val), s.sources[i].id,
          BitVec.ofNat 16 ((s.sources[i].newest.map (·.toNat)).getD 0xFFFF)⟩] <+: t.notices) ∧
      (s.sources[i].role = .guide → t.guideFrozen = s.guideFrozen.set i true ∧
        t.hearing = s.hearing.map fun r => if r.slot = i then
          { r with frozen := true, silenceDeadline := none, leaveDeadline := none } else r) ∧
      (s.sources[i].role ≠ .guide → t.hearing = s.hearing ∧ t.guideFrozen = s.guideFrozen) ∧
      (∀ n : AnnNo, t.announcements[n] =
        s.announcements[n].filter fun a => !(a.slot = i ∧ a.state = .on)) ∧
      (∀ (n : AnnNo) (a : Announcement), s.announcements[n] = some a → a.slot = i → a.state = .on →
        ∀ q : ProgNo, t.programs[q].state = .active → t.programs[q].overlayAnn = chosenOverlay t q) ∧
      SettingsKept s t ∧ t.receivers = s.receivers ∧ t.racks = s.racks ∧ t.pool = s.pool ∧
      t.outfits = s.outfits ∧ t.requests = s.requests

/-! ### Tours and programs -/

/-- OPEN_TOUR of a CLOSED tour whose programs are not issued, with a guide that no other OPEN tour has: the tour is
OPEN with guide and priority class as given, and its generation advances. Its programs, and the targets of its LINKED
ones, are derived in turn, and stand as R26 gives (R21). Then a place is offered: with a guide that is not frozen, the
galleries where it is IN join, the earliest IN stamp first and the lower port between equals, up to three; with a
frozen guide none joins (R83). Every other tour, the hearing table, settings and fleet stay. Refused: MALFORMED with a
reserved byte other than 0, NO_SUCH for a tour above 23, RANGE for a slot above 63 or a class above 3, and
REFUSED_STATE for an OPEN tour, an issued receiver, an UNUSED slot, one that is no GUIDE, and the guide of another
OPEN tour, each without effect. -/
def Obligations.OpenTourOpensTheTour : Prop :=
  (∀ (s : State) (p : PortNo) (rest : List Request) (tag : BitVec 16) (t : TourNo) (i : SourceSlot)
     (priority : Fin 4),
     Serving s p (requestPayload tag 4 (put8 t.val ++ put8 i.val ++ put8 priority.val ++ put8 0)) rest →
     s.tours[t].state = .closed → (∀ l : LangSlot, s.programs[progOf t l].issued = 0) →
     s.sources[i].state ≠ .unused → s.sources[i].role = .guide →
     (∀ u : TourNo, u ≠ t → s.tours[u].state = .opened → s.tours[u].guide ≠ some i) →
     let opened : Tour :=
       { state := .opened, guide := some i, priority := priority, gallerySet := []
         guideFrozen := decide (s.sources[i].state = .lost), generation := s.tours[t].generation + 1 }
     let w : State := { s with requests := rest, tours := s.tours.set t opened }
     let own : List ProgNo := (List.finRange 4).map (progOf t)
     let targets : List ProgNo := own.filterMap fun q =>
       if s.programs[q].mode = .linked then s.programs[q].target else none
     ∃ u, exec .openTour s = .next (respond p (.response tag 4 .ok (entryResult u .tour t.val)) u) ∧
       u = offerPlace t ((own ++ targets).foldl (fun x q => derive q x) w) ∧
       (∀ q ∈ own ++ targets, Settled u q) ∧
       (s.guideFrozen[i] = true → u.tours[t].gallerySet = []) ∧
       (∀ cs : List HearingRecord, s.guideFrozen[i] = false →
         (∀ r, r ∈ cs ↔ r ∈ s.hearing ∧ r.slot = i ∧ r.comparator = .inside) →
         cs.Pairwise (fun x y => x.port ≠ y.port ∧ (StampFirst x.inStamp y.inStamp ∨
           (x.inStamp = y.inStamp ∧ x.port < y.port))) → u.tours[t].gallerySet = (cs.take 3).map (·.port)) ∧
       u.tours[t] = { state := .opened, guide := some i, priority := priority
                      gallerySet := u.tours[t].gallerySet
                      guideFrozen := decide (s.sources[i].state = .lost)
                      generation := s.tours[t].generation + 1 } ∧
       u.tours[t].gallerySet.length ≤ 3 ∧
       (∀ g ∈ u.tours[t].gallerySet, ∃ r ∈ s.hearing, r.slot = i ∧ r.port = g ∧ r.comparator = .inside) ∧
       (∀ n : TourNo, n ≠ t → u.tours[n] = s.tours[n]) ∧
       SourcesTrimmed s u ∧ PortsKept s u ∧ NoticesGrow s u ∧
       u = { s with
             requests := rest, tours := u.tours, programs := u.programs, sources := u.sources
             galleries := u.galleries, ports := u.ports, notices := u.notices
             noticeOverflow := u.noticeOverflow, log := u.log }) ∧
  (∀ (s : State) (p : PortNo) (rest : List Request) (tag : BitVec 16) (x y z v : Nat),
     x < 256 → y < 256 → z < 256 → v < 256 →
     Serving s p (requestPayload tag 4 (put8 x ++ put8 y ++ put8 z ++ put8 v)) rest →
     (v ≠ 0 → AnsweredAlone .openTour s p rest (.response tag 4 .malformed [])) ∧
     (v = 0 → 23 < x → AnsweredAlone .openTour s p rest (.response tag 4 .noSuch [])) ∧
     (v = 0 → x ≤ 23 → 63 < y ∨ 3 < z → AnsweredAlone .openTour s p rest (.response tag 4 .range [])) ∧
     ∀ (t : TourNo) (i : SourceSlot), v = 0 → x = t.val → y = i.val → z ≤ 3 →
       s.tours[t].state = .opened ∨ (∃ l : LangSlot, 0 < s.programs[progOf t l].issued) ∨
         s.sources[i].state = .unused ∨ s.sources[i].role ≠ .guide ∨
         (∃ u : TourNo, u ≠ t ∧ s.tours[u].state = .opened ∧ s.tours[u].guide = some i) →
       AnsweredAlone .openTour s p rest (.response tag 4 .refusedState []))

/-- CLOSE_TOUR of an OPEN tour: first a demand end for each gallery of its set and each wanted program of it, so that
a carrier that was SETTLING or LIVE for one is given up there, to the wait list, parked or free (R103 to R105); no
carrier or wait list differs otherwise, where the stored "wanted" of a target in another tour is what R26 gives. The
tour is CLOSED with an empty set, its other fields kept and its generation advanced; no program of it is ACTIVE, no
outfit order names it, and no receiver is KEYED or ISSUED on it; every other tour, the hearing table and the settings
stay (R22, R131). Refused: MALFORMED with a reserved byte other than 0, NO_SUCH for a tour above 23, REFUSED_STATE for
a CLOSED tour, each without effect. -/
def Obligations.CloseTourClosesTheTour : Prop :=
  (∀ (s : State) (p : PortNo) (rest : List Request) (tag : BitVec 16) (t : TourNo),
     Serving s p (requestPayload tag 5 (put8 t.val ++ put8 0)) rest → s.tours[t].state = .opened →
     ∃ u, exec .closeTour s = .next (respond p (.response tag 5 .ok (entryResult u .tour t.val)) u) ∧
       u.tours = s.tours.set t { s.tours[t] with
         state := .closed, gallerySet := [], guideFrozen := false
         generation := s.tours[t].generation + 1 } ∧
       ((∀ q r : ProgNo, tourOf q = t → s.programs[q].mode = .linked → s.programs[q].target = some r →
           tourOf r ≠ t → (s.programs[r].wanted = true ↔ isWanted s r = true)) →
         u.galleries = (s.tours[t].gallerySet.foldl (fun x g =>
           (wantedOf s t).foldl (fun y q => demandEnd q g y) x) { s with requests := rest }).galleries) ∧
       (∀ l : LangSlot, u.programs[progOf t l].state ≠ .active ∧ u.programs[progOf t l].wanted = false) ∧
       (∀ o ∈ u.outfits, o.tour ≠ t) ∧
       (∀ (r : RecNo) (d : ReceiverData), u.receivers[r].data = some d →
         d.state = .keyed ∨ d.state = .issued → d.keyedProgram.map tourOf ≠ some t) ∧
       SourcesTrimmed s u ∧ PortsKept s u ∧ NoticesGrow s u ∧
       u = { s with
             requests := rest, tours := u.tours, programs := u.programs, sources := u.sources
             galleries := u.galleries, ports := u.ports, notices := u.notices
             noticeOverflow := u.noticeOverflow, log := u.log, receivers := u.receivers, pool := u.pool
             outfits := u.outfits, racks := u.racks }) ∧
  (∀ (s : State) (p : PortNo) (rest : List Request) (tag : BitVec 16) (x v : Nat), x < 256 → v < 256 →
     Serving s p (requestPayload tag 5 (put8 x ++ put8 v)) rest →
     (v ≠ 0 → AnsweredAlone .closeTour s p rest (.response tag 5 .malformed [])) ∧
     (v = 0 → 23 < x → AnsweredAlone .closeTour s p rest (.response tag 5 .noSuch [])) ∧
     ∀ t : TourNo, v = 0 → x = t.val → s.tours[t].state = .closed →
       AnsweredAlone .closeTour s p rest (.response tag 5 .refusedState []))

/-- A program is wanted when its tour is OPEN, it is not UNSET and it has keyed or issued receivers or is always
carried; it is ACTIVE when wanted, or mixable and the target of a wanted LINKED program, and else DORMANT or UNSET
(R26). Entry: readers afresh, voice condition, pace, overlay and block deadline as R27, R30, R31 and Table 3-3 give.
Exit: no cursor, overlay or deadline is left (R28). A program that becomes wanted arrives on every gallery of its
tour's set in turn, and is served or waits there; one that is no longer wanted ends on each: it waits on none, and a
carrier that was SETTLING or LIVE for it is given up (R27 to R29, R103 to R105); the rest of the hub, and other
programs but for the pace of its linkers, stay. Shut out: a program that targets itself, which R32 refuses. -/
def Obligations.ActiveFollowsWanted : Prop :=
  ∀ (s : State) (p : ProgNo), s.programs[p].target ≠ some p →
    let mixable (q : ProgNo) : Prop := s.tours[tourOf q].state = .opened ∧ s.programs[q].mode ≠ .unset
    let wanted (q : ProgNo) : Prop := mixable q ∧
      (0 < s.programs[q].keyed + s.programs[q].issued ∨ s.programs[q].carryAlways = true)
    let active : Prop := mixable p ∧ (wanted p ∨ ∃ q : ProgNo,
      s.programs[q].mode = .linked ∧ s.programs[q].target = some p ∧ wanted q)
    let t := derive p s
    (t.programs[p].wanted = true ↔ wanted p) ∧ (t.programs[p].state = .active ↔ active) ∧
    (¬ active → t.programs[p].state = if s.programs[p].mode = .unset then .unset else .dormant) ∧
    (s.programs[p].state ≠ .active → active → ∃ (c : VoiceCond) (pc : Pace),
      (c = .fallback ↔ s.programs[p].mode = .interpreter ∧ interpreterAvailable s p = false ∧
        guideAvailable s p = true) ∧
      (pc = .following ↔ (s.programs[p].mode = .guide ∧ guideAvailable s p = true) ∨
        (s.programs[p].mode = .interpreter ∧
          (interpreterAvailable s p = true ∨ guideAvailable s p = true)) ∨
        (s.programs[p].mode = .linked ∧ ∃ q, s.programs[p].target = some q ∧
          s.programs[q].state = .active)) ∧
      t.programs[p] = { s.programs[p] with
        state := .active, wanted := t.programs[p].wanted, cond := c, pace := pc
        lead := ⟨none, .fresh, none⟩, floor := ⟨none, .fresh, none⟩, overlay := ⟨none, .fresh, none⟩
        overlayAnn := chosenOverlay s p
        blockDeadline := if pc = .fill then some (s.clock + 4)
          else if s.programs[p].mode = .linked then none
          else some (s.clock + BitVec.ofNat 32 (4 + s.limits.mixSlackMs)) }) ∧
    (s.programs[p].state = .active → ¬ active → t.programs[p] = { s.programs[p] with
      state := if s.programs[p].mode = .unset then .unset else .dormant
      wanted := t.programs[p].wanted, pace := .fill, cond := .voice, overlayAnn := none, blockDeadline := none
      lead := { s.programs[p].lead with cursor := none, conceal := .fresh }
      floor := { s.programs[p].floor with cursor := none, conceal := .fresh }
      overlay := { s.programs[p].overlay with cursor := none, conceal := .fresh } }) ∧
    (s.programs[p].state = .active → active →
      t.programs[p] = { s.programs[p] with wanted := t.programs[p].wanted }) ∧
    (s.programs[p].wanted = false → wanted p → t = s.tours[tourOf p].gallerySet.foldl
      (fun x g => demandArrival p g x) { s with programs := t.programs, sources := t.sources }) ∧
    (s.programs[p].wanted = true → ¬ wanted p → t = s.tours[tourOf p].gallerySet.foldl
      (fun x g => demandEnd p g x) { s with programs := t.programs, sources := t.sources }) ∧
    (s.programs[p].wanted = false → wanted p →
      ∀ g ∈ s.tours[tourOf p].gallerySet, ServedOrWaiting t p g) ∧
    (s.programs[p].wanted = true → ¬ wanted p →
      ∀ g ∈ s.tours[tourOf p].gallerySet, isWaiting t.galleries[g] p = false) ∧
    ((s.programs[p].wanted = true ↔ wanted p) → t = { s with programs := t.programs, sources := t.sources }) ∧
    (∀ q : ProgNo, q ≠ p → t.programs[q] = { s.programs[q] with
        pace := t.programs[q].pace, blockDeadline := t.programs[q].blockDeadline } ∧
      (s.programs[q].mode ≠ .linked ∨ s.programs[q].target ≠ some p → t.programs[q] = s.programs[q])) ∧
    SourcesTrimmed s t ∧ PortsKept s t ∧ NoticesGrow s t ∧
    t = { s with
          programs := t.programs, sources := t.sources, galleries := t.galleries, ports := t.ports
          notices := t.notices, noticeOverflow := t.noticeOverflow, log := t.log }

/-- What the change of a source's state does to an ACTIVE program. The pace follows the presence of the lead:
FOLLOWING keeps the block deadline, FILL keeps it or sets 4 ms (R31, R40). An INTERPRETER program whose interpreter is
not available goes from VOICE to FALLBACK when its guide is: its lead takes over the floor's reading, and its floor
starts afresh (R30, R39). When its interpreter is available again it returns to VOICE: its lead takes the
interpreter's newest entry, which is mixed at once (here the entry next to it is not there yet), and its floor takes
over the lead's reading: to that block it gives the guide's oldest entry after the former lead cursor, or conceals
from the former lead's state (R39, R43, R47). With neither available the voice condition stays, in FILL. -/
def Obligations.VoiceConditionAndPaceFollow : Prop :=
  ∀ (s : State) (p : ProgNo),
    (s.programs[p].state ≠ .active → deriveVoice p s = s) ∧
    (s.programs[p].state = .active →
      ((s.programs[p].mode = .guide ∧ s.programs[p].cond = .voice ∧ guideAvailable s p = true) ∨
          (s.programs[p].mode = .interpreter ∧ s.programs[p].cond = .voice ∧
            interpreterAvailable s p = true) ∨
          (s.programs[p].mode = .interpreter ∧ s.programs[p].cond = .fallback ∧
            interpreterAvailable s p = false ∧ guideAvailable s p = true) →
        deriveVoice p s = s.modProgram p fun r => { r with pace := .following }) ∧
      ((s.programs[p].mode = .guide ∧ s.programs[p].cond = .voice ∧ guideAvailable s p = false) ∨
          (s.programs[p].mode = .interpreter ∧ interpreterAvailable s p = false ∧
            guideAvailable s p = false) →
        (s.programs[p].pace = .fill → deriveVoice p s = s) ∧
        (s.programs[p].pace = .following → deriveVoice p s = s.modProgram p fun r =>
          { r with pace := .fill, blockDeadline := some (r.blockDeadline.getD (s.clock + 4)) })) ∧
      (s.programs[p].mode = .interpreter → s.programs[p].cond = .voice →
        interpreterAvailable s p = false → guideAvailable s p = true →
        (∀ j, guideOf s p = some j → ∀ c, s.programs[p].floor.cursor = some c →
          ∀ e ∈ s.sources[j].store, e.seq ≠ c + 1) →
        ∃ t, t = deriveVoice p s ∧ SourcesTrimmed s t ∧
          t = { s with sources := t.sources, programs := s.programs.set p { s.programs[p] with
            cond := .fallback, pace := .following, lead := s.programs[p].floor
            floor := ⟨none, .fresh, none⟩ } }) ∧
      (∀ (i : SourceSlot) (front : List Entry) (e : Entry), s.programs[p].mode = .interpreter →
        s.programs[p].cond = .fallback → s.programs[p].interpreter = some i →
        interpreterAvailable s p = true → guideOf s p ≠ some i → overlaySource s p ≠ some i →
        s.sources[i].store = front ++ [e] → (∀ x ∈ s.sources[i].store, x.seq ≠ e.seq + 1) →
        ∃ t, t = deriveVoice p s ∧ t.programs[p].cond = .voice ∧ t.programs[p].pace = .following ∧
          t.programs[p].lead.cursor = some e.seq ∧ t.programs[p].lead.conceal = .fresh ∧
          t.programs[p].blockCount = s.programs[p].blockCount + 1 ∧
          t.programs[p].blockDeadline = some (s.clock + BitVec.ofNat 32 (4 + s.limits.mixSlackMs)) ∧
          (guideOf s p = none → t.programs[p].floor = s.programs[p].lead) ∧
          (∀ j, guideOf s p = some j → overlaySource s p ≠ some j → t.programs[p].floor =
            match takeOldestAfter s.sources[j].store s.programs[p].lead.cursor with
            | some f => ⟨some f.seq, .fresh, some (if s.sources[j].mute then zeroBlock else f.samples)⟩
            | none => { s.programs[p].lead with conceal := s.programs[p].lead.conceal.step }) ∧
          SourcesTrimmed s t ∧ PortsKept s t ∧ NoticesGrow s t ∧
          t = { s with programs := t.programs, sources := t.sources, ports := t.ports
                       notices := t.notices, noticeOverflow := t.noticeOverflow, log := t.log }))

/-! ### The mix engine -/

/-- The effective multiplier of one gain is that gain; of two, the rounded shift of their product; of three, the
rounded shift of that by the third; after each shift it is saturated to 65535. Gains in their range give one within 0
to 65535 (R51). Each sample of a contribution is the product of sample and multiplier divided by 16384 to the nearest
whole number, an exact half going up, and the accumulator is their exact sum (R50, R52). Each output sample is its
accumulator saturated to −32768 to 32767; the block clips exactly when some accumulator lay outside (R53). -/
def Obligations.OutputSamplesSaturate : Prop :=
  (∀ g₁ g₂ g₃ : Int, 0 ≤ g₁ → g₁ ≤ 32767 → 0 ≤ g₂ → g₂ ≤ 32767 → 0 ≤ g₃ → g₃ ≤ 32767 →
    let two : Int := min 65535 ((g₁ * g₂ + 8192) / 16384)
    effectiveMultiplier [g₁] = g₁ ∧ effectiveMultiplier [g₁, g₂] = two ∧
    effectiveMultiplier [g₁, g₂, g₃] = min 65535 ((two * g₃ + 8192) / 16384)) ∧
  (∀ gs : List Int, (∀ g ∈ gs, 0 ≤ g ∧ g ≤ 32767) →
    0 ≤ effectiveMultiplier gs ∧ effectiveMultiplier gs ≤ 65535) ∧
  ∀ cs : List Contribution,
    (∀ i : Fin 64, accumulator cs i =
      (cs.map fun c => (c.samples[i].toInt * c.multiplier + 8192) / 16384).sum ∧
      ((accumulator cs i < -32768 → (outputBlock cs)[i].toInt = -32768) ∧
        (32767 < accumulator cs i → (outputBlock cs)[i].toInt = 32767) ∧
        (-32768 ≤ accumulator cs i → accumulator cs i ≤ 32767 →
          (outputBlock cs)[i].toInt = accumulator cs i))) ∧
    (blockClips cs = true ↔ ∃ i : Fin 64, accumulator cs i < -32768 ∨ 32767 < accumulator cs i)

/-- The arrival of entry n at a source (R41). A FOLLOWING program whose lead cursor is bound to it and is absent or
one behind mixes one block with it, and with every entry that follows without a gap (R43): its cursor stands at the
last, its block count rises by their number, and the deadline is 4 ms and the mix slack from now. With any other
cursor, in FILL, or with another lead nothing changes. Here the store has at most four entries (R11), and no other
reader of the program is bound to it. -/
def Obligations.ArrivalMixesBlocks : Prop :=
  ∀ (s : State) (p : ProgNo) (i : SourceSlot) (n : Seq),
    (s.programs[p].state ≠ .active ∨ s.programs[p].pace = .fill ∨ leadSource s p ≠ some i ∨
      (∃ c, s.programs[p].lead.cursor = some c ∧ n ≠ c + 1) → arrivalAt i n p s = s) ∧
    ∀ m : Nat, s.programs[p].state = .active → s.programs[p].pace = .following → leadSource s p = some i →
      floorSource s p ≠ some i → overlaySource s p ≠ some i → s.sources[i].store.length ≤ 4 →
      (∀ c, s.programs[p].lead.cursor = some c → n = c + 1) →
      (∀ j, j ≤ m → ∃ e ∈ s.sources[i].store, e.seq = n + BitVec.ofNat 8 j) →
      (∀ e ∈ s.sources[i].store, e.seq ≠ n + BitVec.ofNat 8 (m + 1)) →
      ∃ t, t = arrivalAt i n p s ∧
        t.programs[p].blockCount = s.programs[p].blockCount + BitVec.ofNat 16 (m + 1) ∧
        t.programs[p].lead.cursor = some (n + BitVec.ofNat 8 m) ∧ t.programs[p].lead.conceal = .fresh ∧
        t.programs[p].blockDeadline = some (s.clock + BitVec.ofNat 32 (4 + s.limits.mixSlackMs)) ∧
        t.programs[p].state = .active ∧ t.programs[p].pace = .following ∧
        SourcesTrimmed s t ∧ PortsKept s t ∧ NoticesGrow s t ∧
        t = { s with programs := t.programs, sources := t.sources, ports := t.ports, notices := t.notices
                     noticeOverflow := t.noticeOverflow, log := t.log }

/-- The block deadline of an ACTIVE program expires: one block is mixed with the lead concealed, so its block count
rises by one and the lead's conceal state takes one step of Table 3-5. In FILL the lead cursor stays and the deadline
is 4 ms from now (R44); in FOLLOWING with a source as lead the cursor moves on by one and the deadline is 4 ms and the
mix slack from now (R42). When the store then holds entries that follow the cursor without a gap, a further block is
mixed with each: the block count rises by their number too, and the cursor stands at the last (R43; here the store has
at most four entries, and no other reader of the program is bound to it). The CLIP flag never falls; sources lose at
most oldest entries of their stores; tours, hearing, fleet, requests, announcements and settings stay. -/
def Obligations.BlockDeadlineMixesOneBlock : Prop :=
  (∀ (s : State) (p : ProgNo), s.phase = .running → s.programs[p].state = .active →
     s.due s.programs[p].blockDeadline = true →
     s.programs[p].pace = .fill ∨ (s.programs[p].mode ≠ .linked ∧
       ∀ (i : SourceSlot) (c : Seq), leadSource s p = some i → s.programs[p].lead.cursor = some c →
         ∀ e ∈ s.sources[i].store, e.seq ≠ c + 2) →
     ∃ t, exec (.blockDeadlineExpiry p) s = .next t ∧
       t.programs[p].blockCount = s.programs[p].blockCount + 1 ∧
       (s.programs[p].pace = .fill → t.programs[p].blockDeadline = some (s.clock + 4) ∧
         t.programs[p].lead = { s.programs[p].lead with conceal := s.programs[p].lead.conceal.step }) ∧
       (s.programs[p].pace = .following →
         t.programs[p].blockDeadline = some (s.clock + BitVec.ofNat 32 (4 + s.limits.mixSlackMs)) ∧
         t.programs[p].lead = { s.programs[p].lead with
           cursor := s.programs[p].lead.cursor.map (· + 1), conceal := s.programs[p].lead.conceal.step }) ∧
       t.programs[p].state = .active ∧ t.programs[p].pace = s.programs[p].pace ∧
       (s.programs[p].clip = true → t.programs[p].clip = true) ∧
       SourcesTrimmed s t ∧ NoticesGrow s t ∧ PortsKept s t ∧
       t = { s with
             programs := t.programs, sources := t.sources, ports := t.ports, notices := t.notices
             noticeOverflow := t.noticeOverflow, log := t.log }) ∧
  (∀ (s : State) (p : ProgNo) (i : SourceSlot) (c : Seq) (m : Nat), s.phase = .running →
     s.programs[p].state = .active → s.due s.programs[p].blockDeadline = true → s.programs[p].pace = .following →
     leadSource s p = some i → s.programs[p].lead.cursor = some c → floorSource s p ≠ some i →
     overlaySource s p ≠ some i → s.sources[i].store.length ≤ 4 →
     (∀ j, 1 ≤ j → j ≤ m → ∃ e ∈ s.sources[i].store, e.seq = c + 1 + BitVec.ofNat 8 j) →
     (∀ e ∈ s.sources[i].store, e.seq ≠ c + 1 + BitVec.ofNat 8 (m + 1)) →
     ∃ t, exec (.blockDeadlineExpiry p) s = .next t ∧
       t.programs[p].blockCount = s.programs[p].blockCount + BitVec.ofNat 16 (1 + m) ∧
       t.programs[p].lead.cursor = some (c + 1 + BitVec.ofNat 8 m) ∧
       (1 ≤ m → t.programs[p].lead.conceal = .fresh) ∧
       t.programs[p].blockDeadline = some (s.clock + BitVec.ofNat 32 (4 + s.limits.mixSlackMs)) ∧
       t.programs[p].state = .active ∧ t.programs[p].pace = .following ∧
       (s.programs[p].clip = true → t.programs[p].clip = true) ∧
       SourcesTrimmed s t ∧ NoticesGrow s t ∧ PortsKept s t ∧
       t = { s with
             programs := t.programs, sources := t.sources, ports := t.ports, notices := t.notices
             noticeOverflow := t.noticeOverflow, log := t.log })

/-- The contributions of Table 3-4, read at the block, whatever gave it its voice: the entry taken, a concealment (a
deadline's block, FILL, or a take that finds none) or the target's output. Voice of a base program; voice and, unless
its floor step is 0, floor of an INTERPRETER program in VOICE; the guide with the fallback step in FALLBACK; voice and
floor of a LINKED program, with multiplier 0 at floor step 0. With an overlay the duck step stands last and the
announcer's contribution is added: its newest entry while the overlay cursor is absent, and else the oldest after it.
A reader whose take finds none is concealed on its own (R46 to R48, R51, R71; shut out: GAIN entry 0 written to
another value than 0, log entry 39; here guide, interpreter and announcer are three slots). The completion of a block
raises block count and clip count (R54, R55); each FOLLOWING program linked to it mixes one block with the output as
its lead, and no other program changes (R45, R57). A block is handed as one program frame to each gallery port where
the program holds a LIVE carrier, and to no other port (R56). -/
def Obligations.BlockIsMixedAndDelivered : Prop :=
  (∀ (s : State) (p : ProgNo) (input : LeadInput),
    let r := s.programs[p]
    let gain (g : GainStep) : Int := s.gains[g].value
    let ann := r.overlayAnn.bind fun a => s.announcements[a]
    let duck : List Int := (ann.map fun x => gain x.duckStep).toList
    let oldest (i : SourceSlot) (c : Option Seq) : Option Entry := takeOldestAfter s.sources[i].store c
    let ovl : List Contribution := (ann.map fun x =>
      ⟨suppliedBy s r.overlay x.slot (match r.overlay.cursor with
        | none => takeNewest s.sources[x.slot].store
        | some c => oldest x.slot (some c)),
       effectiveMultiplier [gain s.sources[x.slot].gainStep, gain x.levelStep]⟩).toList
    let lead (i : SourceSlot) : Block := match input with
      | .take n => suppliedBy s r.lead i (takeBySequence s.sources[i].store n)
      | .conceal => concealed r.lead
      | .target b => b
    let floor (j : SourceSlot) : Contribution :=
      ⟨suppliedBy s r.floor j (oldest j r.floor.cursor),
       effectiveMultiplier ([gain s.sources[j].gainStep, gain r.floorStep] ++ duck)⟩
    ∀ j : SourceSlot, guideOf s p = some j → (∀ x, ann = some x → x.slot ≠ j ∧ r.interpreter ≠ some x.slot) →
      (r.mode = .guide → (mixBlock p input s).2 =
        ⟨lead j, effectiveMultiplier ([gain s.sources[j].gainStep, gain r.voiceStep] ++ duck)⟩ :: ovl) ∧
      (∀ i : SourceSlot, r.mode = .interpreter → r.cond = .voice → r.interpreter = some i → i ≠ j →
        (mixBlock p input s).2 =
          ⟨lead i, effectiveMultiplier ([gain s.sources[i].gainStep, gain r.voiceStep] ++ duck)⟩ ::
            (if r.floorStep = 0 then ovl else floor j :: ovl)) ∧
      (r.mode = .interpreter → r.cond = .fallback → (mixBlock p input s).2 =
        ⟨lead j, effectiveMultiplier ([gain s.sources[j].gainStep, gain r.fallbackStep] ++ duck)⟩ :: ovl) ∧
      (r.mode = .linked → (r.floorStep = 0 → s.gains[(0 : GainStep)].value = 0) →
        let b := match input with
          | .target b => b
          | .take _ | .conceal => concealed r.lead
        (mixBlock p input s).2 = ⟨b, effectiveMultiplier ([gain r.voiceStep] ++ duck)⟩ ::
          (if r.floorStep = 0 then { floor j with multiplier := 0 } else floor j) :: ovl)) ∧
  (∀ (s : State) (p : ProgNo) (input : LeadInput), s.programs[p].mode ≠ .linked →
    ∃ t cs, t = blockEvent p input s ∧ cs = (mixBlock p input s).2 ∧
      t.programs[p].blockCount = s.programs[p].blockCount + 1 ∧
      t.programs[p].clip = (s.programs[p].clip || blockClips cs) ∧
      t.programs[p].clipCount = (if blockClips cs then min 65535 (s.programs[p].clipCount + 1)
        else s.programs[p].clipCount) ∧
      (∀ q : ProgNo, s.programs[q].state = .active → s.programs[q].mode = .linked →
        s.programs[q].pace = .following → s.programs[q].target = some p →
        t.programs[q].blockCount = s.programs[q].blockCount + 1 ∧ t.programs[q].blockDeadline = none ∧
        t.programs[q].lead = { s.programs[q].lead with conceal := .fresh, prev := some (outputBlock cs) }) ∧
      (∀ q : ProgNo, q ≠ p → s.programs[q].state ≠ .active ∨ s.programs[q].mode ≠ .linked ∨
        s.programs[q].pace ≠ .following ∨ s.programs[q].target ≠ some p →
        t.programs[q] = s.programs[q])) ∧
  ∀ (s : State) (p : ProgNo) (block : Block) (g : PortNo),
    deliver p block s = { s with
      ports := (deliver p block s).ports, notices := (deliver p block s).notices
      noticeOverflow := (deliver p block s).noticeOverflow, log := (deliver p block s).log } ∧
    ((∀ c : CarrierNo, s.galleries[g].carriers[c].state ≠ .live ∨
        s.galleries[g].carriers[c].program ≠ some p) → (deliver p block s).ports[g] = s.ports[g]) ∧
    ∀ c : CarrierNo, s.galleries[g].carriers[c].state = .live → s.galleries[g].carriers[c].program = some p →
      (∀ d : CarrierNo, d < c → s.galleries[g].carriers[d].state ≠ .live ∨
        s.galleries[g].carriers[d].program ≠ some p) →
      (deliver p block s).ports[g] =
        (handFrame g (.program c p s.programs[p].blockCount block) s).ports[g]

/-! ### Hearing, carriers and announcements -/

/-- An observation moves est8 a quarter of the way to 8 times its value, the fraction dropped, within 0 to 1016 (R75);
the comparator then makes at most one change (R78). OUT at the join threshold and LEAVING back at the leave threshold
become IN: the gallery joins the set when there is a place, with demand, overlays and GUIDE_MOVED, and else waits as a
candidate (R80, R82, R84). IN below the leave threshold becomes LEAVING, or OUT with a leave hold of 0. A pair without
a record gets one, compared at once; in a full table the first OUT record makes room, and with none the observation is
not tracked (R74). -/
def Obligations.ObservationMovesTheComparator : Prop :=
  (∀ est8 obs : Nat, est8 ≤ 1016 → obs ≤ 127 →
    (smooth est8 obs : Int) = est8 + ((obs : Int) * 8 - est8).tdiv 4 ∧ smooth est8 obs ≤ 1016 ∧
    min est8 (obs * 8) ≤ smooth est8 obs ∧ smooth est8 obs ≤ max est8 (obs * 8)) ∧
  ∀ (s : State) (i : SourceSlot) (g : PortNo) (level : Nat),
    (∀ r, hearingOf s i g = some r → r.frozen = false →
      (r.comparator = .out → s.limits.join ≤ smooth r.est8 (min 127 level) / 8 →
        CameIn i g (modHearing i g (fun x => { x.after s level with
          comparator := .inside, inStamp := some s.clock }) s) (observe i g level s)) ∧
      (r.comparator = .leaving → s.limits.leave ≤ smooth r.est8 (min 127 level) / 8 →
        CameIn i g (modHearing i g (fun x => { x.after s level with
          comparator := .inside, leaveDeadline := none }) s) (observe i g level s)) ∧
      (r.comparator = .inside → smooth r.est8 (min 127 level) / 8 < s.limits.leave →
        (s.limits.leaveHoldS ≠ 0 → observe i g level s = modHearing i g (fun x => { x.after s level with
          comparator := .leaving
          leaveDeadline := some (s.clock + BitVec.ofNat 32 (s.limits.leaveHoldS * 1000)) }) s) ∧
        (s.limits.leaveHoldS = 0 → observe i g level s =
          becomeOut i g (modHearing i g (HearingRecord.after s level) s))) ∧
      ((r.comparator = .out ∧ smooth r.est8 (min 127 level) / 8 < s.limits.join) ∨
          (r.comparator = .inside ∧ s.limits.leave ≤ smooth r.est8 (min 127 level) / 8) ∨
          (r.comparator = .leaving ∧ smooth r.est8 (min 127 level) / 8 < s.limits.leave) →
        observe i g level s = modHearing i g (HearingRecord.after s level) s)) ∧
    (hearingOf s i g = none →
      (∀ kept, MakesRoom s.hearing kept →
        (min 127 level < s.limits.join → observe i g level s = { s with
          hearing := insertBefore keyBefore ⟨i, g, min 127 level * 8, .out, none,
            some (s.clock + BitVec.ofNat 32 s.limits.silenceMs), none, false⟩ kept }) ∧
        (s.limits.join ≤ min 127 level → CameIn i g { s with
          hearing := insertBefore keyBefore ⟨i, g, min 127 level * 8, .inside, some s.clock,
            some (s.clock + BitVec.ofNat 32 s.limits.silenceMs), none, false⟩ kept } (observe i g level s))) ∧
      (96 ≤ s.hearing.length → (∀ x ∈ s.hearing, x.comparator ≠ .out) → observe i g level s = s))

/-- The deadlines of a hearing record that is not frozen. Silence: an OUT record is removed when its level has run
out, and re-armed with the lower est8 when it has not; an IN or LEAVING record is re-armed, with est8 1 to 3 taken to
0. Both are compared: OUT that still reaches the join threshold, or LEAVING the leave threshold, comes IN; IN below
the leave threshold goes to LEAVING, or becomes OUT with a leave hold of 0 (R76, R78). Leave, of a LEAVING record: it
is OUT with no IN stamp and no leave deadline; a gallery that was no member changes nothing more, a member leaves the
set of the tour that the guide serves; settings, fleet and requests stay (R79, R81). -/
def Obligations.HearingDeadlinesEndRecords : Prop :=
  ∀ (s : State) (i : SourceSlot) (g : PortNo) (r : HearingRecord), s.phase = .running →
    hearingOf s i g = some r → r.frozen = false →
    (r.comparator = .out → s.due r.silenceDeadline = true → r.est8 ≤ 3 →
      exec (.silenceDeadlineExpiry i g) s =
        .next { s with hearing := s.hearing.filter fun x => !(x.slot = i ∧ x.port = g) }) ∧
    (r.comparator = .out → s.due r.silenceDeadline = true → 4 ≤ r.est8 →
      (r.est8 - r.est8 / 4) / 8 < s.limits.join → exec (.silenceDeadlineExpiry i g) s =
      .next { s with hearing := s.hearing.map fun x => if x.slot = i ∧ x.port = g then
        { x with est8 := r.est8 - r.est8 / 4
                 silenceDeadline := some (s.clock + BitVec.ofNat 32 s.limits.silenceMs) } else x }) ∧
    (r.comparator = .out → s.due r.silenceDeadline = true → 4 ≤ r.est8 →
      s.limits.join ≤ (r.est8 - r.est8 / 4) / 8 →
      ∃ t, exec (.silenceDeadlineExpiry i g) s = .next t ∧ CameIn i g (modHearing i g (fun x => { x with
        est8 := r.est8 - r.est8 / 4
        silenceDeadline := some (s.clock + BitVec.ofNat 32 s.limits.silenceMs)
        comparator := .inside, inStamp := some s.clock }) s) t) ∧
    (r.comparator = .leaving → s.due r.silenceDeadline = true → s.limits.leave ≤ (r.est8 - r.est8 / 4) / 8 →
      4 ≤ r.est8 →
      ∃ t, exec (.silenceDeadlineExpiry i g) s = .next t ∧ CameIn i g (modHearing i g (fun x => { x with
        est8 := r.est8 - r.est8 / 4
        silenceDeadline := some (s.clock + BitVec.ofNat 32 s.limits.silenceMs)
        comparator := .inside, leaveDeadline := none }) s) t) ∧
    (r.comparator = .inside → s.due r.silenceDeadline = true → s.limits.leaveHoldS = 0 →
      let e := if r.est8 ≤ 3 then 0 else r.est8 - r.est8 / 4
      e / 8 < s.limits.leave → exec (.silenceDeadlineExpiry i g) s =
        .next (becomeOut i g (modHearing i g (fun x => { x with
          est8 := e, silenceDeadline := some (s.clock + BitVec.ofNat 32 s.limits.silenceMs) }) s))) ∧
    (r.comparator ≠ .out → s.due r.silenceDeadline = true →
      let e := if r.est8 ≤ 3 then 0 else r.est8 - r.est8 / 4
      (r.comparator = .inside ∧ (s.limits.leaveHoldS ≠ 0 ∨ s.limits.leave ≤ e / 8)) ∨
        (r.comparator = .leaving ∧ e / 8 < s.limits.leave) → exec (.silenceDeadlineExpiry i g) s =
      .next { s with hearing := s.hearing.map fun x => if x.slot = i ∧ x.port = g then
        { x with
          est8 := e, silenceDeadline := some (s.clock + BitVec.ofNat 32 s.limits.silenceMs)
          comparator := if r.comparator = .inside ∧ e / 8 < s.limits.leave then .leaving else x.comparator
          leaveDeadline := if r.comparator = .inside ∧ e / 8 < s.limits.leave then
            some (s.clock + BitVec.ofNat 32 (s.limits.leaveHoldS * 1000)) else x.leaveDeadline }
        else x }) ∧
    (r.comparator = .leaving → s.due r.leaveDeadline = true →
      ∃ t, exec (.leaveDeadlineExpiry i g) s = .next t ∧
        t.hearing = (s.hearing.map fun x => if x.slot = i ∧ x.port = g then
          { x with comparator := .out, inStamp := none, leaveDeadline := none } else x) ∧
        ((∀ n, servedTour s i = some n → g ∉ s.tours[n].gallerySet) →
          t = { s with hearing := t.hearing }) ∧
        (∀ n, servedTour s i = some n → g ∉ t.tours[n].gallerySet) ∧
        SettingsKept s t ∧ NoticesGrow s t ∧ t.receivers = s.receivers ∧ t.racks = s.racks ∧
        t.pool = s.pool ∧ t.outfits = s.outfits ∧ t.requests = s.requests)

/-- The leave deadline of a LEAVING record makes it OUT, and a member then leaves the set of its tour, with change
code 2, before a place is offered (R79, R81, R82). An offered place: the head candidate, by the earliest IN stamp and
then the lower port, joins, and the offer is repeated; without room, an unfrozen guide or a candidate nothing changes
(R80). A guide's thaw: none of its records stays frozen; with the thresholds as they were and a leave hold above 0,
each has a new silence deadline, a LEAVING one its hold in full, and a place is offered to the tour served (R86). -/
def Obligations.LeavesAndThawsOfferPlaces : Prop :=
  (∀ (s : State) (i : SourceSlot) (g : PortNo),
    (∀ r, s.phase = .running → hearingOf s i g = some r → r.frozen = false → r.comparator = .leaving →
      s.due r.leaveDeadline = true → exec (.leaveDeadlineExpiry i g) s = .next (becomeOut i g s)) ∧
    ((∀ n, servedTour s i = some n → g ∉ s.tours[n].gallerySet) → becomeOut i g s =
      modHearing i g (fun x => { x with comparator := .out, inStamp := none, leaveDeadline := none }) s) ∧
    (∀ n, servedTour s i = some n → g ∈ s.tours[n].gallerySet →
      ∃ u, LeftSet (modHearing i g (fun x =>
          { x with comparator := .out, inStamp := none, leaveDeadline := none }) s) u n g ∧
        becomeOut i g s = offerPlace n u)) ∧
  (∀ (s : State) (n : TourNo),
    (s.tours[n].state = .closed ∨ ¬ HasRoomFor s n ∨ (∀ x ∈ s.hearing, s.tours[n].guide = some x.slot →
      x.comparator = .inside → x.port ∈ s.tours[n].gallerySet) → offerPlace n s = s) ∧
    ∀ r ∈ s.hearing, s.tours[n].state = .opened → HasRoomFor s n → s.tours[n].guide = some r.slot →
      r.comparator = .inside → r.port ∉ s.tours[n].gallerySet →
      (∀ x ∈ s.hearing, x.slot = r.slot → x.comparator = .inside → x.port ∉ s.tours[n].gallerySet → x ≠ r →
        ∃ a, r.inStamp = some a ∧ ∃ b, x.inStamp = some b ∧
          (earlier a b = true ∨ (a = b ∧ r.port < x.port))) →
      ∃ u, Joined s u n r.port ∧ offerPlace n s = offerPlace n u) ∧
  ∀ (s : State) (i : SourceSlot),
    (∀ x ∈ (thawGuide i s).hearing, x.slot = i → x.frozen = false) ∧
    (s.limits.leaveHoldS ≠ 0 →
      (∀ x ∈ s.hearing, x.slot = i → ∀ y ∈ s.hearing, y.slot = i → x.port = y.port → x = y) →
      (∀ x ∈ s.hearing, x.slot = i → (x.comparator = .out ∧ x.est8 / 8 < s.limits.join) ∨
        (x.comparator = .inside ∧ s.limits.leave ≤ x.est8 / 8) ∨
        (x.comparator = .leaving ∧ x.est8 / 8 < s.limits.leave)) →
      ∃ u, u = { s with
          guideFrozen := s.guideFrozen.set i false
          hearing := s.hearing.map fun x => if x.slot = i then { x with
            frozen := false
            silenceDeadline := some (s.clock + BitVec.ofNat 32 s.limits.silenceMs)
            leaveDeadline := if x.comparator = .leaving then
              some (s.clock + BitVec.ofNat 32 (s.limits.leaveHoldS * 1000)) else none } else x } ∧
        (servedTour s i = none → thawGuide i s = u) ∧
        ∀ n, servedTour s i = some n → thawGuide i s = offerPlace n u)

/-- The carry rank of R95: priority class, then base language, then receivers, then the lower program number; of two
programs exactly one ranks above the other. -/
def Obligations.CarryRankOrdersPrograms : Prop :=
  ∀ (s : State) (p q : ProgNo),
    (priorityOf s q < priorityOf s p → ranksAbove s p q = true) ∧
    (priorityOf s p = priorityOf s q → langOf p = 0 → langOf q ≠ 0 → ranksAbove s p q = true) ∧
    (priorityOf s p = priorityOf s q → (langOf p = 0 ↔ langOf q = 0) →
      receiverSum s q < receiverSum s p → ranksAbove s p q = true) ∧
    (priorityOf s p = priorityOf s q → (langOf p = 0 ↔ langOf q = 0) →
      receiverSum s p = receiverSum s q → (ranksAbove s p q = true ↔ p < q)) ∧
    (p ≠ q → (ranksAbove s p q = true ↔ ranksAbove s q p = false))

/-- Demand arrival of a program on a gallery. Served or waiting there: nothing changes (R97). Otherwise, in this order
(R98): its own PARKED carrier is LIVE at once, with CARRIER_READY; the lowest FREE carrier settles with it; the PARKED
carrier with the earliest park deadline, the lower number between equals, settles with it; the occupant of lowest
carry rank is pre-empted when the program ranks above it, and waits (R99); else the program waits (R100). A changed
carrier sends the map. Settling runs to the settle deadline, and with a settle time of 0 the carrier is LIVE at once
(R101). A waiting program stands at its rank's place, with PROGRAM_UNSERVED (R92, R107). -/
def Obligations.DemandArrivalAllocates : Prop :=
  ∀ (s : State) (p : ProgNo) (g : PortNo),
    (ServedOrWaiting s p g → demandArrival p g s = s) ∧
    (¬ ServedOrWaiting s p g →
      (∀ c : CarrierNo, s.galleries[g].carriers[c].state = .parked →
        s.galleries[g].carriers[c].program = some p →
        (∀ d : CarrierNo, d < c → s.galleries[g].carriers[d].state ≠ .parked ∨
          s.galleries[g].carriers[d].program ≠ some p) →
        demandArrival p g s = sendMap g (queueNotice .carrierReady (some (BitVec.ofNat 16 p.val))
          (some (BitVec.ofNat 16 g.val)) (BitVec.ofNat 16 c.val)
          (s.modCarrier g c fun _ => ⟨.live, some p, none, none⟩))) ∧
      ((∀ d : CarrierNo, s.galleries[g].carriers[d].state ≠ .parked ∨
          s.galleries[g].carriers[d].program ≠ some p) →
        (∀ c : CarrierNo, s.galleries[g].carriers[c].state = .free →
          (∀ d : CarrierNo, d < c → s.galleries[g].carriers[d].state ≠ .free) →
          demandArrival p g s = sendMap g (startSettle g c p s)) ∧
        (∀ (c : CarrierNo) (x : Clock), (∀ d : CarrierNo, s.galleries[g].carriers[d].state ≠ .free) →
          s.galleries[g].carriers[c].state = .parked → s.galleries[g].carriers[c].parkDeadline = some x →
          (∀ d : CarrierNo, d ≠ c → s.galleries[g].carriers[d].state = .parked →
            ∃ y, s.galleries[g].carriers[d].parkDeadline = some y ∧
              (earlier x y = true ∨ (x = y ∧ c < d))) →
          demandArrival p g s = sendMap g (startSettle g c p s)) ∧
        (∀ (c : CarrierNo) (q : ProgNo),
          (∀ d : CarrierNo, s.galleries[g].carriers[d].state = .settling ∨
            s.galleries[g].carriers[d].state = .live) →
          s.galleries[g].carriers[c].program = some q →
          (∀ d : CarrierNo, d ≠ c → ∀ q', s.galleries[g].carriers[d].program = some q' →
            ranksAbove s q' q = true) →
          (ranksAbove s p q = true →
            demandArrival p g s = sendMap g (putWaiting g q (startSettle g c p s))) ∧
          (ranksAbove s p q = false → demandArrival p g s = putWaiting g p s)))) ∧
    (∀ c : CarrierNo,
      (s.limits.settleMs ≠ 0 → startSettle g c p s = s.modCarrier g c fun _ =>
        ⟨.settling, some p, some (s.clock + BitVec.ofNat 32 s.limits.settleMs), none⟩) ∧
      (s.limits.settleMs = 0 → startSettle g c p s = queueNotice .carrierReady
        (some (BitVec.ofNat 16 p.val)) (some (BitVec.ofNat 16 g.val)) (BitVec.ofNat 16 c.val)
        (s.modCarrier g c fun _ => ⟨.live, some p, none, none⟩))) ∧
    ∀ front back : List Waiter, s.galleries[g].waitList = front ++ back →
      (∀ w ∈ front, w.program ≠ p ∧ ranksAbove s p w.program = false) →
      (∀ w ∈ back.head?, ranksAbove s p w.program = true) →
      putWaiting g p s = queueNotice .programUnserved (some (BitVec.ofNat 16 p.val))
        (some (BitVec.ofNat 16 g.val)) (BitVec.ofNat 16 (front.length + 1))
        (s.modGallery g fun e => { e with waitList := front ++ ⟨p, s.clock⟩ :: back })

/-- Demand end of a program on a gallery. Waiting: it leaves the list; holding nothing: nothing changes (R103). Its
carrier goes to the head of the wait list, with PROGRAM_SERVED and the time waited, and settles with it (R104); with
an empty list it is PARKED with the program, or FREE with a park time of 0 (R105); the map is sent. New carry ranks
move the programs' entries to their places, whatever the number of programs, and nothing else (R96). -/
def Obligations.DemandEndReleasesTheCarrier : Prop :=
  (∀ (s : State) (p : ProgNo) (g : PortNo),
    (isWaiting s.galleries[g] p = true → demandEnd p g s = s.modGallery g fun e =>
      { e with waitList := e.waitList.filter fun w => w.program ≠ p }) ∧
    (¬ ServedOrWaiting s p g → demandEnd p g s = s) ∧
    ∀ c : CarrierNo, isWaiting s.galleries[g] p = false → s.galleries[g].carriers[c].program = some p →
      s.galleries[g].carriers[c].state = .settling ∨ s.galleries[g].carriers[c].state = .live →
      (∀ d : CarrierNo, d ≠ c → s.galleries[g].carriers[d].program ≠ some p) →
      (∀ w rest, s.galleries[g].waitList = w :: rest → demandEnd p g s = sendMap g
        (startSettle g c w.program (queueNotice .programServed (some (BitVec.ofNat 16 w.program.val))
          (some (BitVec.ofNat 16 g.val)) (BitVec.ofNat 16 (min 65535 (s.clock - w.stamp).toNat))
          (s.modGallery g fun e => { e with waitList := rest })))) ∧
      (s.galleries[g].waitList = [] →
        (s.limits.parkS = 0 → demandEnd p g s =
          sendMap g (s.modCarrier g c fun _ => ⟨.free, none, none, none⟩)) ∧
        (s.limits.parkS ≠ 0 → demandEnd p g s = sendMap g (s.modCarrier g c fun _ =>
          ⟨.parked, some p, none, some (s.clock + BitVec.ofNat 32 (s.limits.parkS * 1000))⟩)))) ∧
  ∀ (s : State) (ps : List ProgNo),
    rerank ps s = { s with galleries := (rerank ps s).galleries } ∧
    ∀ g : PortNo, (rerank ps s).galleries[g] =
        { s.galleries[g] with waitList := (rerank ps s).galleries[g].waitList } ∧
      (rerank ps s).galleries[g].waitList.Perm s.galleries[g].waitList ∧
      ((s.galleries[g].waitList.map (·.program)).Nodup →
        (s.galleries[g].waitList.filter fun w => !ps.contains w.program).Pairwise
          (fun x y => ranksAbove s x.program y.program = true) →
        (rerank ps s).galleries[g].waitList.Pairwise
          (fun x y => ranksAbove s x.program y.program = true))

/-- The settle deadline makes a SETTLING carrier LIVE, with CARRIER_READY (R102, R107); the park deadline makes a
PARKED one FREE (R106); after either the port is sent its map, and so it is when the map refresh deadline expires;
each time the next refresh is one second from now (R108, R109). Nothing else changes. -/
def Obligations.CarrierDeadlinesSendTheMap : Prop :=
  ∀ (s : State) (g : PortNo) (c : CarrierNo), s.phase = .running →
    (∀ p : ProgNo, s.galleries[g].carriers[c].state = .settling →
      s.galleries[g].carriers[c].program = some p →
      s.due s.galleries[g].carriers[c].settleDeadline = true →
      exec (.settleDeadlineExpiry g c) s = .next ((handFrame g (.carrierMap ((fins 8).map fun d =>
        if d = c then (.live, some p)
        else (s.galleries[g].carriers[d].state, s.galleries[g].carriers[d].program)))
          (queueNotice .carrierReady (some (BitVec.ofNat 16 p.val)) (some (BitVec.ofNat 16 g.val))
            (BitVec.ofNat 16 c.val) (s.modCarrier g c fun _ => ⟨.live, some p, none, none⟩))).modGallery g
              fun e => { e with mapRefresh := some (s.clock + 1000) })) ∧
    (s.galleries[g].carriers[c].state = .parked →
      s.due s.galleries[g].carriers[c].parkDeadline = true →
      exec (.parkDeadlineExpiry g c) s = .next ((handFrame g (.carrierMap ((fins 8).map fun d =>
        if d = c then (.free, none)
        else (s.galleries[g].carriers[d].state, s.galleries[g].carriers[d].program)))
          (s.modCarrier g c fun _ => ⟨.free, none, none, none⟩)).modGallery g
            fun e => { e with mapRefresh := some (s.clock + 1000) })) ∧
    (s.due s.galleries[g].mapRefresh = true →
      exec (.mapRefreshDeadlineExpiry g) s = .next ((handFrame g (.carrierMap ((fins 8).map fun d =>
        (s.galleries[g].carriers[d].state, s.galleries[g].carriers[d].program))) s).modGallery g
          fun e => { e with mapRefresh := some (s.clock + 1000) }))

/-- ANNOUNCE_START for an ANNOUNCER slot that is not UNUSED (R61, R63, R64). No record holds the slot and one is free:
the lowest free record takes the operands, the duration clamped to 1 to 600: ON with start stamp and end deadline when
the source is LIVE, and otherwise PENDING with a pending deadline and no other effect. A record holds it: the record
is renewed, its end deadline set anew when it is ON. Every record is taken by others: TABLE_FULL. ANNOUNCE_STOP, with
or without the start flag, frees the record that holds the slot; one that was ON overlays no ACTIVE program any more
(R62, R68). ANNOUNCE_QUERY changes nothing. Without a record for the slot both answer OK with the result that is none
(R62, R65). When a record is ON, or was, each ACTIVE program then has the overlay of R69 or none; nothing else follows
but that oldest entries may leave frame stores (R70). Whatever the flags, a slot above 63, a priority above 3 or a
step above 15 is refused RANGE, and a start for an UNUSED slot or one that is no ANNOUNCER REFUSED_STATE, without
effect; the response carries the record of the slot or none (R61, R65; log entry 27). -/
def Obligations.AnnounceFillsRenewsAndFreesRecords : Prop :=
  (∀ (s : State) (p : PortNo) (rest : List Request) (tag : BitVec 16) (i : SourceSlot) (zones : BitVec 8)
     (priority : Fin 4) (level duck : GainStep) (duration : Nat), duration < 65536 →
     Serving s p (requestPayload tag 8 (put8 i.val ++ put8 1 ++ put8 zones.toNat ++ put8 priority.val ++
       put8 level.val ++ put8 duck.val ++ put16 duration)) rest →
     s.sources[i].state ≠ .unused → s.sources[i].role = .announcer →
     (∀ n : AnnNo, s.announcements[n] = none → (∀ m : AnnNo, m < n → s.announcements[m] ≠ none) →
       (∀ (m : AnnNo) (b : Announcement), s.announcements[m] = some b → b.slot ≠ i) →
       ∃ u, exec .announceStart s = .next (respond p (.response tag 8 .ok (announceResult u (some i))) u) ∧
         SourcesTrimmed s u ∧
         (s.sources[i].state ≠ .live → u = ({ s with requests := rest }).setAnnouncement n
           (some ⟨i, zones, priority, level, duck, max 1 (min 600 duration), .waiting,
             none, none, some (s.clock + BitVec.ofNat 32 (s.limits.pendingS * 1000))⟩)) ∧
         (s.sources[i].state = .live → u =
           ({ s with requests := rest, programs := u.programs, sources := u.sources }).setAnnouncement n
           (some ⟨i, zones, priority, level, duck, max 1 (min 600 duration), .on,
             some s.clock, some (s.clock + BitVec.ofNat 32 (max 1 (min 600 duration) * 1000)), none⟩) ∧
           ∀ q : ProgNo, u.programs[q].state = .active →
             u.programs[q].overlayAnn = chosenOverlay u q) ∧
         ∀ q : ProgNo, u.programs[q] = { s.programs[q] with
           overlayAnn := u.programs[q].overlayAnn, overlay := u.programs[q].overlay }) ∧
     (∀ (n : AnnNo) (b : Announcement), s.announcements[n] = some b → b.slot = i →
       (∀ (m : AnnNo) (c : Announcement), m < n → s.announcements[m] = some c → c.slot ≠ i) →
       ∃ u, exec .announceStart s = .next (respond p (.response tag 8 .ok (announceResult u (some i))) u) ∧
         SourcesTrimmed s u ∧
         u = ({ s with requests := rest, programs := u.programs, sources := u.sources }).setAnnouncement n
           (some { b with
             zones := zones, priority := priority, levelStep := level, duckStep := duck
             duration := max 1 (min 600 duration)
             endDeadline := if b.state = AnnState.on then
               some (s.clock + BitVec.ofNat 32 (max 1 (min 600 duration) * 1000)) else b.endDeadline }) ∧
         (b.state = .waiting → u.programs = s.programs ∧ u.sources = s.sources) ∧
         (b.state = .on → ∀ q : ProgNo, u.programs[q].state = .active →
           u.programs[q].overlayAnn = chosenOverlay u q) ∧
         ∀ q : ProgNo, u.programs[q] = { s.programs[q] with
           overlayAnn := u.programs[q].overlayAnn, overlay := u.programs[q].overlay }) ∧
     ((∀ n : AnnNo, s.announcements[n] ≠ none) →
       (∀ (m : AnnNo) (b : Announcement), s.announcements[m] = some b → b.slot ≠ i) →
       exec .announceStart s = .next (respond p
         (.response tag 8 .tableFull (0xFF :: List.replicate 20 0)) { s with requests := rest }))) ∧
  (∀ (s : State) (p : PortNo) (rest : List Request) (tag : BitVec 16) (i : SourceSlot) (flags : Nat)
     (zones : BitVec 8) (priority : Fin 4) (level duck : GainStep) (duration : Nat), flags < 4 →
     Serving s p (requestPayload tag 8 (put8 i.val ++ put8 flags ++ put8 zones.toNat ++ put8 priority.val ++
       put8 level.val ++ put8 duck.val ++ put16 duration)) rest →
     (∀ (n : AnnNo) (b : Announcement), flags = 0 → s.announcements[n] = some b → b.slot = i →
       (∀ (m : AnnNo) (c : Announcement), m < n → s.announcements[m] = some c → c.slot ≠ i) →
       AnsweredAlone .announceQuery s p rest (.response tag 8 .ok (put8 n.val ++
         put8 (if b.state = .on then 2 else 1) ++ put8 i.val ++ put8 b.zones.toNat ++ put8 b.priority.val ++
         put8 b.levelStep.val ++ put8 b.duckStep.val ++ put16 b.duration ++
         put32 ((b.startStamp.map (·.toNat)).getD 0xFFFFFFFF) ++
         put32 ((b.endDeadline.map (·.toNat)).getD 0xFFFFFFFF) ++
         put32 ((b.pendingDeadline.map (·.toNat)).getD 0xFFFFFFFF)))) ∧
     (flags = 0 → exec .announceQuery s = .next (respond p
       (.response tag 8 .ok (announceResult s (some i))) { s with requests := rest })) ∧
     (2 ≤ flags → (∀ (m : AnnNo) (b : Announcement), s.announcements[m] = some b → b.slot ≠ i) →
       exec .announceStop s = .next (respond p
         (.response tag 8 .ok (0xFF :: List.replicate 20 0)) { s with requests := rest })) ∧
     (∀ (n : AnnNo) (b : Announcement), 2 ≤ flags → s.announcements[n] = some b → b.slot = i →
       (∀ (m : AnnNo) (c : Announcement), m ≠ n → s.announcements[m] = some c → c.slot ≠ i) →
       ∃ u, exec .announceStop s = .next (respond p
           (.response tag 8 .ok (0xFF :: List.replicate 20 0)) u) ∧
         SourcesTrimmed s u ∧
         u = { s with requests := rest, announcements := s.announcements.set n none
                      programs := u.programs, sources := u.sources } ∧
         (b.state = .waiting → u.programs = s.programs ∧ u.sources = s.sources) ∧
         (b.state = .on → ∀ q : ProgNo, u.programs[q].state = .active →
           u.programs[q].overlayAnn ≠ some n ∧ u.programs[q].overlayAnn = chosenOverlay u q) ∧
         ∀ q : ProgNo, u.programs[q] = { s.programs[q] with
           overlayAnn := u.programs[q].overlayAnn, overlay := u.programs[q].overlay })) ∧
  ∀ (s : State) (p : PortNo) (rest : List Request) (tag : BitVec 16)
    (slot flags zones priority level duck duration : Nat), slot < 256 → flags < 4 → zones < 256 →
    priority < 256 → level < 256 → duck < 256 → duration < 65536 →
    Serving s p (requestPayload tag 8 (put8 slot ++ put8 flags ++ put8 zones ++ put8 priority ++
      put8 level ++ put8 duck ++ put16 duration)) rest →
    let result : List Byte := if h : slot < 64 then announceResult s (some ⟨slot, h⟩)
      else 0xFF :: List.replicate 20 0
    (63 < slot ∨ 3 < priority ∨ 15 < level ∨ 15 < duck →
      (flags = 0 → AnsweredAlone .announceQuery s p rest (.response tag 8 .range result)) ∧
      (flags = 1 → AnsweredAlone .announceStart s p rest (.response tag 8 .range result)) ∧
      (2 ≤ flags → AnsweredAlone .announceStop s p rest (.response tag 8 .range result))) ∧
    ∀ i : SourceSlot, slot = i.val → priority ≤ 3 → level ≤ 15 → duck ≤ 15 → flags = 1 →
      s.sources[i].state = .unused ∨ s.sources[i].role ≠ .announcer →
      AnsweredAlone .announceStart s p rest (.response tag 8 .refusedState result)

/-- The deadlines of an announcement free its record. The end deadline of one that is ON: no ACTIVE program is
overlaid by it any more, each having the overlay of R69 or none, and nothing else changes but the overlays of
programs, and that oldest entries may leave frame stores (R68, R70). The pending deadline of a PENDING one:
ANNOUNCE_DROPPED carries slot, record and zone set, and no overlay changes (R67). The overlay of R69 for a program: an
announcement that is ON, with a zone in its set that has a gallery of the tour's set as member; it is ranked before
every other such record, by priority, start stamp (of less than 2^31 ms ago, R174) and record number; and there is
none when no record applies. -/
def Obligations.AnnouncementDeadlinesFreeTheRecord : Prop :=
  (∀ (s : State) (n : AnnNo) (a : Announcement), s.phase = .running → s.announcements[n] = some a →
     (a.state = .on → s.due a.endDeadline = true →
       ∃ t, exec (.endDeadlineExpiry n) s = .next t ∧
         t = { s with announcements := s.announcements.set n none, programs := t.programs
                      sources := t.sources } ∧
         SourcesTrimmed s t ∧
         (∀ p : ProgNo, t.programs[p].state = .active →
           t.programs[p].overlayAnn ≠ some n ∧ t.programs[p].overlayAnn = chosenOverlay t p) ∧
         ∀ p : ProgNo, t.programs[p] = { s.programs[p] with
           overlayAnn := t.programs[p].overlayAnn, overlay := t.programs[p].overlay }) ∧
     (a.state = .waiting → s.due a.pendingDeadline = true →
       exec (.pendingDeadlineExpiry n) s = .next (queueNotice .announceDropped
         (some (BitVec.ofNat 16 a.slot.val)) (some (BitVec.ofNat 16 n.val)) (a.zones.setWidth 16)
         { s with announcements := s.announcements.set n none }))) ∧
  (∀ (s : State) (p : ProgNo),
     (∀ n, chosenOverlay s p = some n → ∃ a, AppliesTo s p n a ∧
       (∀ (m : AnnNo) (b : Announcement), AppliesTo s p m b → b.priority ≤ a.priority) ∧
       ((∀ (m : AnnNo) (b : Announcement), AppliesTo s p m b →
           ∃ c, b.startStamp = some c ∧ (s.clock - c).toNat < 2 ^ 31) →
         ∀ (m : AnnNo) (b : Announcement), AppliesTo s p m b → m ≠ n → RankedFirst n a m b)) ∧
     (chosenOverlay s p = none ↔ ∀ (m : AnnNo) (b : Announcement), ¬ AppliesTo s p m b))

/-! ### The receiver fleet and its racks -/

/-- OUTFIT for a program of an OPEN tour while fewer than 8 orders are queued: an order with the next number and the
wanted count clamped to 1 to 40 joins the tail, the heads of the ready pool may be selected for orders, and the next
number is one that no order holds, and is not 0 (R119, R120, R121). CANCEL_OUTFIT of an order that is queued: no order
of that number is left and no receiver is KEYING for it; every other order keeps number, program, wanted, keyed and
failed counts; the response carries the order with the receivers left KEYING as selected (R124). Refused without
effect: OUTFIT as MALFORMED with a reserved byte other than 0, NO_SUCH for a tour above 23 or a language slot above 3,
REFUSED_STATE for a CLOSED tour or an UNSET program, TABLE_FULL with 8 orders queued; CANCEL_OUTFIT as NO_SUCH for a
number that no order holds. -/
def Obligations.OutfitOrdersComeAndGo : Prop :=
  (∀ (s : State) (p : PortNo) (rest : List Request) (tag : BitVec 16) (t : TourNo) (l : LangSlot)
     (want : Nat), want < 256 →
     Serving s p (requestPayload tag 6 (put8 t.val ++ put8 l.val ++ put8 want ++ put8 0)) rest →
     s.tours[t].state = .opened → s.programs[progOf t l].mode ≠ .unset → s.outfits.length < 8 →
     ∃ u, exec .outfit s = .next (respond p (.response tag 6 .ok (orderResult u s.nextOrder)) u) ∧
       u.outfits.map (fun o => (o.number, o.tour, o.lang, o.want, o.keyed, o.failed)) =
         s.outfits.map (fun o => (o.number, o.tour, o.lang, o.want, o.keyed, o.failed)) ++
           [(s.nextOrder, t, l, max 1 (min 40 want), 0, 0)] ∧
       u.nextOrder ≠ 0 ∧ (∀ o ∈ u.outfits, o.number ≠ u.nextOrder) ∧
       u.pool <:+ s.pool ∧ u.programs = s.programs ∧
       FleetFrame { s with requests := rest, nextOrder := u.nextOrder } u) ∧
  (∀ (s : State) (p : PortNo) (rest : List Request) (tag n : BitVec 16) (o : OutfitOrder),
     Serving s p (requestPayload tag 7 (put16 n.toNat)) rest → orderOf s n = some o →
     ∃ u, exec .cancelOutfit s = .next (respond p (.response tag 7 .ok
         (put16 n.toNat ++ put8 o.tour.val ++ put8 o.lang.val ++ put8 o.want ++ put8 (flyingFor s n) ++
           put8 o.keyed ++ put8 o.failed)) u) ∧
       u.outfits.map (fun o => (o.number, o.tour, o.lang, o.want, o.keyed, o.failed)) =
         (s.outfits.filter fun x => x.number ≠ n).map
           (fun o => (o.number, o.tour, o.lang, o.want, o.keyed, o.failed)) ∧
       (∀ (r : RecNo) (d : ReceiverData), u.receivers[r].data = some d → d.state = .keying →
         d.outfit ≠ some n) ∧
       u.programs = s.programs ∧ FleetFrame { s with requests := rest } u) ∧
  ∀ (s : State) (p : PortNo) (rest : List Request) (tag : BitVec 16),
    (∀ x y want v : Nat, x < 256 → y < 256 → want < 256 → v < 256 →
      Serving s p (requestPayload tag 6 (put8 x ++ put8 y ++ put8 want ++ put8 v)) rest →
      (v ≠ 0 → AnsweredAlone .outfit s p rest (.response tag 6 .malformed [])) ∧
      (v = 0 → 23 < x ∨ 3 < y → AnsweredAlone .outfit s p rest (.response tag 6 .noSuch [])) ∧
      ∀ (t : TourNo) (l : LangSlot), v = 0 → x = t.val → y = l.val →
        (s.tours[t].state = .closed ∨ s.programs[progOf t l].mode = .unset →
          AnsweredAlone .outfit s p rest (.response tag 6 .refusedState [])) ∧
        (s.tours[t].state = .opened → s.programs[progOf t l].mode ≠ .unset → 8 ≤ s.outfits.length →
          AnsweredAlone .outfit s p rest (.response tag 6 .tableFull []))) ∧
    ∀ n : BitVec 16, Serving s p (requestPayload tag 7 (put16 n.toNat)) rest →
      (∀ o ∈ s.outfits, o.number ≠ n) →
      AnsweredAlone .cancelOutfit s p rest (.response tag 7 .noSuch [])

/-- Selection takes the orders oldest first and fills each one's shortfall from the head of the pool before the next:
the receivers it takes for an order are KEYING for its program and number, leave the pool, and a KEY for their slot
stands in their rack's key queue; the order's S rises by their number (R121). Here no number and no pool member stands
twice, and each member has its record. -/
def Obligations.SelectionServesOrdersInTurn : Prop :=
  ∀ (s : State) (before : List OutfitOrder) (o : OutfitOrder) (after : List OutfitOrder),
    s.outfits = before ++ o :: after → (s.outfits.map (·.number)).Nodup → s.pool.Nodup →
    (∀ r ∈ s.pool, s.receivers[r].data ≠ none) →
    let earlierNeed := (before.map OutfitOrder.shortfall).sum
    let t := runSelection s
    t.pool = s.pool.drop ((s.outfits.map OutfitOrder.shortfall).sum) ∧
    t.outfits[before.length]? = some { o with
      selected := o.selected + min o.shortfall (s.pool.length - earlierNeed) } ∧
    (∀ r ∈ (s.pool.drop earlierNeed).take o.shortfall, ∀ d, s.receivers[r].data = some d →
      t.receivers[r] = ⟨some { d with
        state := .keying, keyedProgram := some (progOf o.tour o.lang), outfit := some o.number },
        s.receivers[r].generation + 1⟩ ∧
      ∀ g k, d.place = some (g, k) → .key k (progOf o.tour o.lang) ∈ t.racks[g].keyQueue) ∧
    (∀ r, r ∉ s.pool.take ((s.outfits.map OutfitOrder.shortfall).sum) → t.receivers[r] = s.receivers[r]) ∧
    t = { s with pool := t.pool, outfits := t.outfits, receivers := t.receivers, racks := t.racks }

/-- The loan deadline of an ISSUED receiver expires: it is OVERDUE with no loan deadline, its issue stamp and key
kept, and RECEIVER_OVERDUE carries record, program and the minutes since the issue (R126, R132). -/
def Obligations.LoanDeadlineMakesOverdue : Prop :=
  ∀ (s : State) (r : RecNo) (d : ReceiverData) (p : ProgNo) (c : Clock), s.phase = .running →
    s.receivers[r].data = some d → d.state = .issued → s.due d.loanDeadline = true →
    d.keyedProgram = some p → d.issueStamp = some c →
    exec (.loanDeadlineExpiry r) s = .next (queueNotice .receiverOverdue (some (BitVec.ofNat 16 r.val))
      (some (BitVec.ofNat 16 p.val)) (BitVec.ofNat 16 ((s.clock - c).toNat / 60000))
      { s with receivers := s.receivers.set r ⟨some { d with state := .overdue, loanDeadline := none },
        s.receivers[r].generation + 1⟩ })

/-- The key deadline of an order in flight expires below the retry limit: the same order is handed to the rack's port
again, tour and language code of a KEY as they then stand; it stays in flight with one attempt more and a deadline 2
seconds from now, and no receiver, program or outfit order changes; other racks send what they could (R142). -/
def Obligations.KeyDeadlineResends : Prop :=
  ∀ (s : State) (g : PortNo) (o : KeyOrder), s.phase = .running → Flying s g o →
    s.due s.racks[g].keyDeadline = true → s.racks[g].attempts < s.limits.keyRetries →
    let f : RackOrder := match o with
      | .key k p => .key k p (tourOf p) s.programs[p].language
      | .unkey k => .unkey k
    let u := (handFrame g (.order f) s).modRack g fun e => { e with
      attempts := s.racks[g].attempts + 1, keyDeadline := some (s.clock + 2000) }
    ∃ t, exec (.keyDeadlineExpiry g) s = .next t ∧ t = sendKeys u ∧
      ((∀ h : PortNo, h ≠ g → s.racks[h].online = true → s.racks[h].keyQueue ≠ [] →
        s.racks[h].inFlight = true) → t = u) ∧
      t.racks[g] = { s.racks[g] with
        attempts := s.racks[g].attempts + 1, keyDeadline := some (s.clock + 2000) } ∧
      PortsKept s t ∧ NoticesGrow s t ∧
      t = { s with racks := t.racks, ports := t.ports, notices := t.notices
                   noticeOverflow := t.noticeOverflow, log := t.log }

/-- The key deadline expires with the retries exhausted, or KEY_FAIL arrives for the order in flight (R123, R142,
R143), or SLOT_FAULT names the slot (R144): the receiver in the slot is FAULTY, with no key, outfit order, grant or
place in pool or charge queue; place, battery and dock stamp are kept; of a KEYING one, S of its outfit order falls by
one, F rises by one, and selection runs; of another, the orders stay (R130). A failed order leaves the head of its
rack's queue, the abandoned list stays, and the next order is in flight when the rack is online; while the pool is
empty, the queue loses only what waited for the slot. KEY_FAILED says cause 1 for a report, 2 for the deadline and 3
for the fault of a KEYING receiver, and kind 1 for a KEY, 2 for an UNKEY (R132). SLOT_FAULT for a FAULTY receiver, an
unregistered occupant or an empty slot only sends what could be sent. -/
def Obligations.FailuresMakeFaulty : Prop :=
  (∀ (s : State) (g : PortNo) (o : KeyOrder) (r : RecNo) (d : ReceiverData), Flying s g o →
    InSlot s g o.slot r d → d.state ≠ .faulty →
    let kind := match o with
      | .key _ _ => 1
      | .unkey _ => 2
    let ended (t : State) : Prop :=
      t.racks[g].attempts = 0 ∧ t.racks[g].abandoned = s.racks[g].abandoned ∧
      t.racks[g].inFlight = (s.racks[g].online && !t.racks[g].keyQueue.isEmpty) ∧
      t.racks[g].keyDeadline = (if t.racks[g].inFlight then some (s.clock + 2000) else none) ∧
      (s.pool = [] → t.racks[g].keyQueue = (s.racks[g].keyQueue.drop 1).filter fun x => x.slot ≠ o.slot)
    (s.phase = .running → s.due s.racks[g].keyDeadline = true →
      s.limits.keyRetries ≤ s.racks[g].attempts →
      ∃ t, exec (.keyDeadlineExpiry g) s = .next t ∧ FaultyIn s t g r d ∧ ended t ∧
        KeyFailedSaid s t r d (512 + kind)) ∧
    (PortIs s g .rack → o.slot ∉ s.racks[g].abandoned → ∀ (id : BitVec 24) (level : Nat),
      ∃ t, exec (.keyFail g (reportFrame 6 o.slot id level)) s = .next t ∧ FaultyIn s t g r d ∧ ended t ∧
        KeyFailedSaid s t r d (256 + kind))) ∧
  ∀ (s : State) (g : PortNo) (k : RackSlot) (id : BitVec 24) (level : Nat), PortIs s g .rack →
    (∀ (r : RecNo) (d : ReceiverData), InSlot s g k r d → d.state ≠ .faulty →
      ∃ t, exec (.slotFault g (reportFrame 7 k id level)) s = .next t ∧ FaultyIn s t g r d ∧
        (d.state = .keying → KeyFailedSaid s t r d (768 + 1))) ∧
    (∀ (r : RecNo) (d : ReceiverData), InSlot s g k r d → d.state = .faulty →
      exec (.slotFault g (reportFrame 7 k id level)) s = .next (sendKeys s)) ∧
    (s.racks[g].slots[k].occupant = .empty ∨ s.racks[g].slots[k].occupant = .unregistered →
      exec (.slotFault g (reportFrame 7 k id level)) s = .next (sendKeys s))

/-- KEY_DONE for the order in flight for its slot, whose slot is not on the abandoned list (R122, R143). A KEY: the
KEYING receiver of the slot is KEYED without an outfit order, its program's keyed count rises by one, the order leaves
the key queue, and its outfit order counts it as keyed, or leaves the queue of orders when that was the last one
wanted, with OUTFIT_DONE, which carries order number, program and failed count (R122). An UNKEY: the slot owes none
any more. KEY_DONE or KEY_FAIL for a slot of the abandoned list is the late outcome of an abandoned order and takes
its oldest entry away; for a slot with no order in flight it is ignored; either way what could be sent is sent, rack
by rack (log entry 20), and nothing else changes (R142, R143). -/
def Obligations.KeyOutcomesOfARack : Prop :=
  (∀ (s : State) (g : PortNo) (k : RackSlot) (id : BitVec 24) (level : Nat), PortIs s g .rack →
     k ∉ s.racks[g].abandoned →
     (∀ (q p : ProgNo) (r : RecNo) (d : ReceiverData), Flying s g (.key k q) → InSlot s g k r d →
       d.state = .keying → d.keyedProgram = some p →
       ∃ t, exec (.keyDone g (reportFrame 5 k id level)) s = .next t ∧ FleetFrame s t ∧
         t.receivers = s.receivers.set r ⟨some { d with state := .keyed, outfit := none },
           s.receivers[r].generation + 1⟩ ∧
         t.programs[p].keyed = s.programs[p].keyed + 1 ∧ t.programs[p].issued = s.programs[p].issued ∧
         t.racks[g].keyQueue = s.racks[g].keyQueue.drop 1 ∧ t.pool = s.pool ∧
         (d.outfit = none → t.outfits = s.outfits) ∧
         (∀ (n : BitVec 16) (o : OutfitOrder), d.outfit = some n → orderOf s n = some o →
           t.outfits = if o.want ≤ o.keyed + 1 then s.outfits.filter fun x => x.number ≠ n
             else s.outfits.map fun x => if x.number = n then
               { x with selected := x.selected - 1, keyed := x.keyed + 1 } else x) ∧
         (∀ (n : BitVec 16) (o : OutfitOrder), d.outfit = some n → orderOf s n = some o → o.want ≤ o.keyed + 1 →
           ∃ x, t = sendKeys (queueNotice .outfitDone (some n) (some (BitVec.ofNat 16 (progOf o.tour o.lang).val))
             (BitVec.ofNat 16 o.failed) x) ∧ NoticesGrow s x ∧ x.limits = s.limits ∧ x.clock = s.clock)) ∧
     (Flying s g (.unkey k) → exec (.keyDone g (reportFrame 5 k id level)) s =
       .next (sendKeys (s.modRack g fun e => { e with
         keyQueue := e.keyQueue.drop 1, inFlight := false, attempts := 0, keyDeadline := none
         slots := e.slots.set k { e.slots[k] with unkeyOwed := false } })))) ∧
  (∀ (s : State) (g : PortNo) (k : RackSlot) (id : BitVec 24) (level : Nat), PortIs s g .rack →
     (k ∈ s.racks[g].abandoned →
       exec (.keyDone g (reportFrame 5 k id level)) s = .next (sendKeys
         (s.modRack g fun e => { e with abandoned := e.abandoned.erase k })) ∧
       exec (.keyFail g (reportFrame 6 k id level)) s = .next (sendKeys
         (s.modRack g fun e => { e with abandoned := e.abandoned.erase k }))) ∧
     (k ∉ s.racks[g].abandoned → (∀ o, Flying s g o → o.slot ≠ k) →
       exec (.keyDone g (reportFrame 5 k id level)) s = .next (sendKeys s) ∧
       exec (.keyFail g (reportFrame 6 k id level)) s = .next (sendKeys s)))

/-- DOCK in an empty slot of an id that no record holds. With a free record, the lowest takes the receiver, docked
here and now with the reported level clamped to 100: DOCKED_CHARGING below the ready threshold, and otherwise
DOCKED_READY or selected at once; no other record's receiver or place changes (R128, R129). Without outfit orders the
whole outcome is said: below 100 it stands in the online rack's charge queue at the place of its class (R137), grants
are issued (R138), and at the ready threshold it stands in the pool at its place by battery, dock stamp, port and
slot, when the rack is online (R118). With every record in use, or for an id that is none, the slot holds an
unregistered occupant, with FLEET_FULL for a valid id only, and key orders that could be sent are (R129, R142). -/
def Obligations.DockOfAnUnknownReceiver : Prop :=
  ∀ (s : State) (g : PortNo) (k : RackSlot) (id : BitVec 24) (level : Nat),
    PortIs s g .rack → s.racks[g].slots[k].occupant = .empty → level < 256 →
    (∀ q : RecNo, s.receivers[q].data.map (·.id) ≠ some id) →
    (∀ r : RecNo, id ≠ 0 → id ≠ 0xFFFFFF → s.receivers[r].data = none →
      (∀ q : RecNo, q < r → s.receivers[q].data ≠ none) →
      ∃ t, exec (.dock g (reportFrame 1 k id level)) s = .next t ∧
        t.racks[g].slots[k].occupant = .receiver r ∧ FleetFrame s t ∧
        (∀ q : RecNo, q ≠ r → t.receivers[q].data.map (fun e => (e.id, e.place)) =
          s.receivers[q].data.map fun e => (e.id, e.place)) ∧
        ∃ d, t.receivers[r].data = some d ∧ d.id = id ∧ d.place = some (g, k) ∧
          d.dockStamp = some s.clock ∧ d.battery = min 100 level ∧ d.unconfirmed = false ∧
          d.issueStamp = none ∧ d.loanDeadline = none ∧
          (min 100 level < s.limits.readyThreshold → d.state = .dockedCharging ∧ d.keyedProgram = none) ∧
          (s.limits.readyThreshold ≤ min 100 level → d.state = .dockedReady ∨ d.state = .keying) ∧
          (s.outfits = [] → (∀ x ∈ s.pool ++ s.racks[g].chargeQueue, Docked s x) →
            ∃ u, TookSlot s u g k r id level ∧ t = sendKeys u)) ∧
    (id = 0 ∨ id = 0xFFFFFF → exec (.dock g (reportFrame 1 k id level)) s =
      .next (sendKeys (s.modSlot g k fun e => { e with occupant := .unregistered }))) ∧
    (id ≠ 0 → id ≠ 0xFFFFFF → (∀ q : RecNo, s.receivers[q].data ≠ none) →
      exec (.dock g (reportFrame 1 k id level)) s =
        .next (sendKeys (queueNotice .fleetFull (some (BitVec.ofNat 16 g.val))
          (some (BitVec.ofNat 16 k.val)) (id.setWidth 16)
          (s.modSlot g k fun e => { e with occupant := .unregistered }))))

/-- DOCK of a known receiver (R127). The slot holds it already: it is confirmed, with the reported level clamped to
100; id, place, dock stamp and loan stay. A STRAY one takes an empty slot at any level as an unknown one does, with
its places in charge queue and pool, and so does an ISSUED or OVERDUE one, once it is returned and its UNKEY placed
(said without outfit orders; R118, R137). It comes from outside into an empty slot, with a level below the ready
threshold: it is docked here and now without a key, and when it was ISSUED or OVERDUE on a program, the issued count
falls by one and the slot owes an UNKEY that stands in the key queue (R128, R141). A slot that holds something else is
undocked first, and so is a receiver that is recorded docked elsewhere: the result is that of UNDOCK and then of DOCK
(cases 2 and 3). -/
def Obligations.DockOfAKnownReceiver : Prop :=
  ∀ (s : State) (g : PortNo) (k : RackSlot) (level : Nat) (r : RecNo) (d : ReceiverData),
    PortIs s g .rack → level < 256 → s.receivers[r].data = some d →
    (s.racks[g].slots[k].occupant = .receiver r →
      ∃ t, exec (.dock g (reportFrame 1 k d.id level)) s = .next t ∧
        t.racks[g].slots[k].occupant = .receiver r ∧ FleetFrame s t ∧
        ∃ e, t.receivers[r].data = some e ∧ e.unconfirmed = false ∧ e.battery = min 100 level ∧
          e.id = d.id ∧ e.place = d.place ∧ e.dockStamp = d.dockStamp ∧ e.issueStamp = d.issueStamp ∧
          e.loanDeadline = d.loanDeadline) ∧
    (s.racks[g].slots[k].occupant = .empty → d.place = none →
      (∀ q : RecNo, q < r → s.receivers[q].data.map (·.id) ≠ some d.id) →
      min 100 level < s.limits.readyThreshold →
      ∃ t, exec (.dock g (reportFrame 1 k d.id level)) s = .next t ∧
        t.racks[g].slots[k].occupant = .receiver r ∧ FleetFrame s t ∧
        (d.state = .stray → t.programs = s.programs ∧
          t.racks[g].slots[k].unkeyOwed = s.racks[g].slots[k].unkeyOwed) ∧
        (∀ p : ProgNo, d.state = .issued ∨ d.state = .overdue → d.keyedProgram = some p →
          t.programs[p].issued = s.programs[p].issued - 1 ∧ t.programs[p].keyed = s.programs[p].keyed ∧
          t.racks[g].slots[k].unkeyOwed = true ∧ .unkey k ∈ t.racks[g].keyQueue) ∧
        ∃ e, t.receivers[r].data = some e ∧ e.id = d.id ∧ e.state = .dockedCharging ∧
          e.place = some (g, k) ∧ e.dockStamp = some s.clock ∧ e.battery = min 100 level ∧
          e.keyedProgram = none ∧ e.outfit = none ∧ e.issueStamp = none ∧ e.loanDeadline = none ∧
          e.unconfirmed = false) ∧
    (s.racks[g].slots[k].occupant = .empty → d.place = none → d.state = .stray →
      (∀ q : RecNo, q < r → s.receivers[q].data.map (·.id) ≠ some d.id) →
      s.outfits = [] → (∀ x ∈ s.pool ++ s.racks[g].chargeQueue, Docked s x) →
      ∃ u, TookSlot s u g k r d.id level ∧ exec (.dock g (reportFrame 1 k d.id level)) s = .next (sendKeys u)) ∧
    (∀ p : ProgNo, s.racks[g].slots[k].occupant = .empty → d.place = none → d.state = .issued ∨ d.state = .overdue →
      d.keyedProgram = some p → (∀ q : RecNo, q < r → s.receivers[q].data.map (·.id) ≠ some d.id) →
      s.outfits = [] → (∀ x ∈ s.pool ++ s.racks[g].chargeQueue, Docked s x) →
      ∃ v u, TookSlot v u g k r d.id level ∧ exec (.dock g (reportFrame 1 k d.id level)) s = .next (sendKeys u) ∧
        FleetFrame s v ∧ v.receivers = s.receivers ∧ v.pool = s.pool ∧ v.outfits = s.outfits ∧
        v.programs[p].issued = s.programs[p].issued - 1 ∧ v.programs[p].keyed = s.programs[p].keyed ∧
        v.racks = s.racks.set g { s.racks[g] with
          slots := s.racks[g].slots.set k { s.racks[g].slots[k] with unkeyOwed := true }
          keyQueue := v.racks[g].keyQueue } ∧
        (let waiting := if s.racks[g].inFlight then s.racks[g].keyQueue.drop 1 else s.racks[g].keyQueue
         v.racks[g].keyQueue = if .unkey k ∈ waiting then s.racks[g].keyQueue
           else s.racks[g].keyQueue ++ [.unkey k])) ∧
    ((s.racks[g].slots[k].occupant = .unregistered ∨
        (∃ q, s.racks[g].slots[k].occupant = .receiver q ∧ s.receivers[q].data.map (·.id) ≠ some d.id) →
      dockReport g k d.id level s = dockFound g k d.id level (undockElsewhere d.id (undockSlot g k s))) ∧
    (∀ (h : PortNo) (j : RackSlot), s.racks[g].slots[k].occupant = .empty → d.place = some (h, j) →
      (∀ q : RecNo, q < r → s.receivers[q].data.map (·.id) ≠ some d.id) →
      dockReport g k d.id level s = dockFound g k d.id level (undockReceiver h j r s)))

/-- UNDOCK by what the slot holds (R125). KEYED: ISSUED with the clock as issue stamp and a loan deadline, its
program's keyed count falling and its issued count rising by one (R116). DOCKED: STRAY. KEYING: STRAY without key and
order, S of its outfit order falling by one, F staying, and selection runs; else the orders stay. FAULTY: its record
is freed. Each leaves slot, pool, grants and charge queue. An unregistered occupant leaves the slot empty alone, and
an empty slot changes nothing but to send what could be sent. -/
def Obligations.UndockByWhatTheSlotHolds : Prop :=
  ∀ (s : State) (g : PortNo) (k : RackSlot) (id : BitVec 24) (level : Nat), PortIs s g .rack →
    (∀ (r : RecNo) (d : ReceiverData), InSlot s g k r d →
      d.state ≠ .issued → d.state ≠ .overdue → d.state ≠ .stray →
      ∃ t, exec (.undock g (reportFrame 2 k id level)) s = .next t ∧ FleetFrame s t ∧
        t.racks[g].slots[k] = ⟨.empty, false⟩ ∧ r ∉ t.pool ∧ r ∉ t.racks[g].grants ∧
        r ∉ t.racks[g].chargeQueue ∧
        t.receivers[r].generation = s.receivers[r].generation + 1 ∧
        (d.state ≠ .keyed → t.programs = s.programs) ∧
        (d.state = .keying → SelectedFrom s t (s.outfits.map fun o => if d.outfit = some o.number then
          { o with selected := o.selected - 1 } else o) (s.pool.filter (· ≠ r))) ∧
        (d.state ≠ .keying → t.outfits = s.outfits ∧ t.pool = s.pool.filter (· ≠ r)) ∧
        (∀ p : ProgNo, d.state = .keyed → d.keyedProgram = some p →
          t.receivers[r].data = some { d with
            state := .issued, place := none, dockStamp := none, charging := false, unconfirmed := false
            issueStamp := some s.clock
            loanDeadline := some (s.clock + BitVec.ofNat 32 (s.limits.loanMin * 60000)) } ∧
          t.programs[p].keyed = s.programs[p].keyed - 1 ∧
          t.programs[p].issued = s.programs[p].issued + 1) ∧
        (d.state = .dockedCharging ∨ d.state = .dockedReady → t.receivers[r].data = some { d with
          state := .stray, place := none, dockStamp := none, charging := false, unconfirmed := false }) ∧
        (d.state = .keying → t.receivers[r].data = some { d with
          state := .stray, place := none, dockStamp := none, charging := false, unconfirmed := false
          keyedProgram := none, outfit := none }) ∧
        (d.state = .faulty → t.receivers[r].data = none)) ∧
    (s.racks[g].slots[k].occupant = .unregistered → exec (.undock g (reportFrame 2 k id level)) s =
      .next (sendKeys (s.modSlot g k fun _ => ⟨.empty, false⟩))) ∧
    (s.racks[g].slots[k].occupant = .empty →
      exec (.undock g (reportFrame 2 k id level)) s = .next (sendKeys s))

/-- BATTERY and CHARGE_DONE for the receiver in a slot, not FAULTY (R139): the level is the reported one clamped to
100, or 100; CHARGE_DONE frees the grant and the place in the charge queue; a DOCKED_CHARGING receiver at or above the
ready threshold, or charged full, becomes DOCKED_READY, or is selected at once, and any other keeps its state and key;
id, place, dock stamp and the programs stay. Without outfit orders the whole outcome is said: the receiver stands at
its class's place in the charge queue of its online rack, or has left it at 100 (R137); one that became DOCKED_READY
enters the pool at its place, and a member moves to the place of its new level (R118); then grants are issued: while
the rack is online and under its limit, the head of the charge queue is charging, the last of the grants, and sent a
GRANT (R138). Of a FAULTY receiver only the level changes, and for an empty slot or an unregistered occupant nothing
but that what could be sent is sent (R142). -/
def Obligations.BatteryAndChargeReports : Prop :=
  ∀ (s : State) (g : PortNo) (k : RackSlot) (id : BitVec 24) (level : Nat), PortIs s g .rack → level < 256 →
    (∀ (r : RecNo) (d : ReceiverData), InSlot s g k r d → d.state ≠ .faulty →
      ∃ t, exec (.battery g (reportFrame 3 k id level)) s = .next t ∧ FleetFrame s t ∧
        t.programs = s.programs ∧
        ∃ e, t.receivers[r].data = some e ∧ e.battery = min 100 level ∧ e.id = d.id ∧
          e.place = d.place ∧ e.dockStamp = d.dockStamp ∧
          (d.state = .dockedCharging ∧ s.limits.readyThreshold ≤ min 100 level →
            e.state = .dockedReady ∨ e.state = .keying) ∧
          (¬ (d.state = .dockedCharging ∧ s.limits.readyThreshold ≤ min 100 level) →
            e.state = d.state ∧ e.keyedProgram = d.keyedProgram)) ∧
    (∀ (r : RecNo) (d : ReceiverData), InSlot s g k r d → d.state ≠ .faulty →
      ∃ t, exec (.chargeDone g (reportFrame 4 k id level)) s = .next t ∧ FleetFrame s t ∧
        t.programs = s.programs ∧ r ∉ t.racks[g].grants ∧ r ∉ t.racks[g].chargeQueue ∧
        ∃ e, t.receivers[r].data = some e ∧ e.battery = 100 ∧ e.charging = false ∧ e.id = d.id ∧
          e.place = d.place ∧ e.dockStamp = d.dockStamp ∧
          (d.state = .dockedCharging → e.state = .dockedReady ∨ e.state = .keying) ∧
          (d.state ≠ .dockedCharging → e.state = d.state ∧ e.keyedProgram = d.keyedProgram)) ∧
    (∀ (r : RecNo) (d : ReceiverData), InSlot s g k r d → d.state ≠ .faulty → d.place = some (g, k) →
      s.outfits = [] → (∀ x ∈ s.pool ++ s.racks[g].chargeQueue, Docked s x) →
      let ready : Prop := d.state = .dockedCharging ∧ s.limits.readyThreshold ≤ min 100 level
      let moved (w : State) : Prop :=
        (r ∈ s.pool → PutAt (PoolOrder w) r (s.pool.filter (· ≠ r)) w.pool) ∧ (r ∉ s.pool → w.pool = s.pool)
      (∃ w e, exec (.battery g (reportFrame 3 k id level)) s = .next (sendKeys (issueGrants g w)) ∧
        e = { d with battery := min 100 level, state := e.state } ∧
        w = { s with
              receivers := s.receivers.set r ⟨some e, w.receivers[r].generation⟩, pool := w.pool
              racks := s.racks.set g { s.racks[g] with chargeQueue := w.racks[g].chargeQueue } } ∧
        SettledInQueue w g r e s.racks[g].chargeQueue ∧
        (ready → e.state = .dockedReady ∧ w.receivers[r].generation = s.receivers[r].generation + 1 ∧
          EnteredPool w g r s.pool w.pool) ∧
        (¬ ready → e.state = d.state ∧ w.receivers[r].generation = s.receivers[r].generation ∧ moved w)) ∧
      ∃ w e, exec (.chargeDone g (reportFrame 4 k id level)) s = .next (sendKeys (issueGrants g w)) ∧
        e = { d with battery := 100, charging := false, state := e.state } ∧
        w = { s with
              receivers := s.receivers.set r ⟨some e, w.receivers[r].generation⟩, pool := w.pool
              racks := s.racks.set g { s.racks[g] with
                grants := s.racks[g].grants.filter (· ≠ r), chargeQueue := s.racks[g].chargeQueue.filter (· ≠ r) } } ∧
        (d.state = .dockedCharging → e.state = .dockedReady ∧
          w.receivers[r].generation = s.receivers[r].generation + 1 ∧ EnteredPool w g r s.pool w.pool) ∧
        (d.state ≠ .dockedCharging → e.state = d.state ∧
          w.receivers[r].generation = s.receivers[r].generation ∧ moved w)) ∧
    (s.racks[g].online = false ∨ s.racks[g].grantLimit ≤ s.racks[g].grants.length ∨ s.racks[g].chargeQueue = [] →
      issueGrants g s = s) ∧
    (∀ (r : RecNo) (queue : List RecNo) (d : ReceiverData) (h : PortNo) (j : RackSlot),
      s.racks[g].chargeQueue = r :: queue → s.racks[g].online = true →
      s.racks[g].grants.length < s.racks[g].grantLimit → s.receivers[r].data = some d → d.place = some (h, j) →
      issueGrants g s = issueGrants g (handFrame g (.order (.grant j)) { s with
        racks := s.racks.set g { s.racks[g] with chargeQueue := queue, grants := s.racks[g].grants ++ [r] }
        receivers := s.receivers.set r ⟨some { d with charging := true }, s.receivers[r].generation⟩ })) ∧
    (∀ (r : RecNo) (d : ReceiverData), InSlot s g k r d → d.state = .faulty →
      exec (.battery g (reportFrame 3 k id level)) s = .next (sendKeys
        (s.modReceiver r fun x => { x with data := some { d with battery := min 100 level } })) ∧
      exec (.chargeDone g (reportFrame 4 k id level)) s = .next (sendKeys
        (s.modReceiver r fun x => { x with data := some { d with battery := 100 } }))) ∧
    (s.racks[g].slots[k].occupant = .empty ∨ s.racks[g].slots[k].occupant = .unregistered →
      exec (.battery g (reportFrame 3 k id level)) s = .next (sendKeys s) ∧
      exec (.chargeDone g (reportFrame 4 k id level)) s = .next (sendKeys s))

/-- While an inventory runs, its deadline hands the INVENTORY order to the port again, with a deadline 5 seconds from
now (R146); INVENTORY_END puts the rack online with no inventory and no inventory deadline, and no slot holds a
receiver still unconfirmed (R147). Without outfit orders its steps are said in full: each receiver still unconfirmed
is undocked, slot by slot; the UNKEY of each slot that owes one and holds a DOCKED receiver joins the key queue, in
ascending slot, unless one waits there; the charge queue holds the rack's receivers that are below 100, not charging
and not FAULTY, each once, in the order of R137, and grants are issued; the rack's DOCKED_READY receivers join the
pool, in the order of R118 (dock stamps of less than 2^31 ms ago, R174); last, what key orders can be sent are. Here
no record stands in two slots, what is docked has place and stamp, and the offline rack had no charge queue. With no
inventory running INVENTORY_END is ignored. -/
def Obligations.InventoryRepeatsAndEnds : Prop :=
  ∀ (s : State) (g : PortNo) (k : RackSlot) (id : BitVec 24) (level : Nat),
    (s.phase = .running → s.racks[g].inventory = true → s.due s.racks[g].inventoryDeadline = true →
      exec (.inventoryDeadlineExpiry g) s = .next ((handFrame g (.order .inventory) s).modRack g
        fun e => { e with inventoryDeadline := some (s.clock + 5000) })) ∧
    (PortIs s g .rack → s.racks[g].inventory = true →
      ∃ t, exec (.inventoryEnd g (reportFrame 8 k id level)) s = .next t ∧ FleetFrame s t ∧
        t.racks[g].online = true ∧ t.racks[g].inventory = false ∧ t.racks[g].inventoryDeadline = none ∧
        (∀ (j : RackSlot) (r : RecNo) (d : ReceiverData), InSlot t g j r d → d.unconfirmed = false) ∧
        (∀ (j : RackSlot) (r : RecNo) (d : ReceiverData), InSlot s g j r d → d.unconfirmed = false →
          t.racks[g].slots[j].occupant = .receiver r)) ∧
    (∀ (j : RackSlot) (x : State), reconcile g j x = match x.racks[g].slots[j].occupant with
      | .receiver r => if x.receivers[r].data.any (·.unconfirmed) then undockReceiver g j r x else x
      | .empty | .unregistered => x) ∧
    (PortIs s g .rack → s.racks[g].inventory = true → s.outfits = [] →
      let u := (List.finRange 40).foldl (fun x j => reconcile g j x) s
      let owing (j : RackSlot) : Bool := u.racks[g].slots[j].unkeyOwed && (match u.racks[g].slots[j].occupant with
        | .receiver r => u.receivers[r].data.any fun d => d.state == .dockedCharging || d.state == .dockedReady
        | .empty | .unregistered => false)
      let waiting := if u.racks[g].inFlight then u.racks[g].keyQueue.drop 1 else u.racks[g].keyQueue
      let ready (r : RecNo) : Prop := ∃ d, u.receivers[r].data = some d ∧ d.state = .dockedReady ∧
        d.place.map (·.1) = some g
      u.racks[g].chargeQueue = [] →
      (∀ (i j : RackSlot) (r : RecNo), u.racks[g].slots[i].occupant = .receiver r →
        u.racks[g].slots[j].occupant = .receiver r → i = j) →
      (∀ r ∈ u.pool, Docked u r) →
      (∀ (j : RackSlot) (r : RecNo) (d : ReceiverData), InSlot u g j r d → d.place ≠ none ∧ d.dockStamp ≠ none) →
      (∀ (r : RecNo), ready r → Docked u r ∧ r ∉ u.pool) →
      ∃ w pool, exec (.inventoryEnd g (reportFrame 8 k id level)) s =
          .next (sendKeys { issueGrants g w with pool := pool }) ∧
        w = { u with racks := u.racks.set g { u.racks[g] with
          inventory := false, inventoryDeadline := none, online := true
          keyQueue := u.racks[g].keyQueue ++ ((List.finRange 40).filter fun j =>
            owing j && !waiting.contains (.unkey j)).map .unkey
          chargeQueue := w.racks[g].chargeQueue } } ∧
        w.racks[g].chargeQueue.Nodup ∧
        (∀ r, r ∈ w.racks[g].chargeQueue ↔ ∃ j d, InSlot u g j r d ∧ d.battery < 100 ∧ d.charging = false ∧
          d.state ≠ .faulty) ∧
        ((∀ r ∈ w.racks[g].chargeQueue, DockedOfLate u r) → InOrder (ChargeOrder u) w.racks[g].chargeQueue) ∧
        (∀ r, r ∈ pool ↔ r ∈ u.pool ∨ ready r) ∧ (u.pool.Nodup → pool.Nodup) ∧
        ((∀ r ∈ pool, DockedOfLate u r) → InOrder (PoolOrder u) u.pool → InOrder (PoolOrder u) pool)) ∧
    (PortIs s g .rack → s.racks[g].inventory = false →
      exec (.inventoryEnd g (reportFrame 8 k id level)) s = .next (sendKeys s))

/-! ### Control requests -/

/-- READ_ENTRY: the response carries the entry as it stands, and the request leaves the queue; a read-and-clear of a
program then makes its CLIP flag no and its clip count 0 (R150, R152, R35). Spelled out byte by byte: a SOURCE entry
with its two store values and a lost deadline only while LIVE (R17); a TOUR entry with its gallery set in the order of
joining (R23); a RACK entry with grants, charge queue and classes, key queue, abandoned list and slots (R148). Of the
other tables GAIN is spelled out by WriteEntrySetsTheEntry. -/
def Obligations.ReadEntryReportsTheEntry : Prop :=
  ∀ (s : State) (p : PortNo) (rest : List Request) (tag : BitVec 16),
    (∀ (t : Table) (index : Nat), index < t.entries →
      Serving s p (requestPayload tag 1 (put8 t.code ++ put8 0 ++ put16 index)) rest →
      exec .readEntry s = .next (respond p
        (.response tag 1 .ok (entryBytes t index (entryFields s t index))) { s with requests := rest })) ∧
    (let field (code value : Nat) : List Byte := put8 code ++ put32 value
     let stamp (c : Option Clock) : Nat := (c.map (·.toNat)).getD 0xFFFFFFFF
     let flag (b : Bool) : Nat := if b then 1 else 0
     (∀ i : SourceSlot, Serving s p (requestPayload tag 1 (put8 1 ++ put8 0 ++ put16 i.val)) rest →
       let e := s.sources[i]
       AnsweredAlone .readEntry s p rest (.response tag 1 .ok (put8 1 ++ put16 i.val ++ put8 10 ++
         field 1 ((e.id.map (·.toNat)).getD 0xFFFFFFFF) ++
         field 2 (match e.role with | .guide => 1 | .interpreter => 2 | .announcer => 3) ++
         field 3 e.gainStep.val ++ field 4 (flag e.mute) ++
         field 5 (match e.state with | .unused => 0 | .idle => 1 | .live => 2 | .lost => 3) ++
         field 6 ((e.newest.map (·.toNat)).getD 0xFFFFFFFF) ++
         field 7 (if e.state = .live then stamp e.lostDeadline else 0xFFFFFFFF) ++
         field 8 e.generation.toNat ++ field 9 e.store.length ++
         field 10 (stamp (e.store.getLast?.map (·.stamp)))))) ∧
     (∀ n : TourNo, Serving s p (requestPayload tag 1 (put8 2 ++ put8 0 ++ put16 n.val)) rest →
       let e := s.tours[n]
       AnsweredAlone .readEntry s p rest (.response tag 1 .ok (put8 2 ++ put16 n.val ++ put8 6 ++
         field 1 (match e.state with | .closed => 0 | .opened => 1) ++
         field 2 ((e.guide.map (·.val)).getD 0xFFFFFFFF) ++ field 3 e.priority.val ++
         (put8 4 ++ put16 e.gallerySet.length ++ e.gallerySet.flatMap fun g => put32 g.val) ++
         field 5 (flag e.guideFrozen) ++ field 6 e.generation.toNat))) ∧
     ∀ g : PortNo, Serving s p (requestPayload tag 1 (put8 9 ++ put8 0 ++ put16 g.val)) rest →
       let e := s.racks[g]
       let item (flying : Bool) (o : KeyOrder) : List Byte := match o with
         | .key k q => put32 3 ++ put32 k.val ++ put32 q.val ++ put32 (flag flying)
         | .unkey k => put32 4 ++ put32 k.val ++ put32 0xFFFFFFFF ++ put32 (flag flying)
       let critical (r : RecNo) : Bool := s.receivers[r].data.any fun d => d.battery < s.limits.critical
       AnsweredAlone .readEntry s p rest (.response tag 1 .ok (put8 9 ++ put16 g.val ++ put8 13 ++
         field 1 (flag e.online) ++ field 2 (flag e.inventory) ++ field 3 (stamp e.inventoryDeadline) ++
         field 4 e.grantLimit ++
         (put8 5 ++ put16 e.grants.length ++ e.grants.flatMap fun r => put32 r.val) ++
         (put8 6 ++ put16 e.chargeQueue.length ++ e.chargeQueue.flatMap fun r =>
           put32 r.val ++ put32 (if critical r then 1 else 2)) ++
         (put8 7 ++ put16 e.keyQueue.length ++ (match e.keyQueue with
           | [] => []
           | o :: after => item e.inFlight o ++ after.flatMap (item false))) ++
         field 8 (flag e.inFlight) ++ field 9 e.attempts ++ field 10 (stamp e.keyDeadline) ++
         (put8 11 ++ put16 e.abandoned.length ++ e.abandoned.flatMap fun k => put32 k.val) ++
         (put8 12 ++ put16 40 ++ (List.finRange 40).flatMap fun k =>
           put32 k.val ++ put32 (match e.slots[k].occupant with
             | .empty => 0xFFFFFFFF
             | .receiver r => r.val
             | .unregistered => 0xFFFFFFFE) ++ put32 (flag e.slots[k].unkeyOwed)) ++
         field 13 e.generation.toNat))) ∧
    ∀ q : ProgNo, Serving s p (requestPayload tag 1 (put8 3 ++ put8 1 ++ put16 q.val)) rest →
      exec .readEntry s = .next (respond p
        (.response tag 1 .ok (entryBytes .program q.val (programFields s.programs[q])))
        (({ s with requests := rest }).modProgram q fun r => { r with clip := false, clipCount := 0 }))

/-- WRITE_ENTRY (R150, R153). GAIN: the value is clamped to 32767, the generation advances, and the response carries
the entry after the write (R49). LIMITS: a limit that is no threshold of the comparator is clamped to its range of
Table 9-4, the generation advances, and nothing else changes but that the charge queues keep their members and stand
in the order of R137, by the critical threshold as it then is (R155, R136; dock stamps of less than 2^31 ms ago,
R174). Join and leave thresholds within 1 to 127 with join above leave after the write are taken together, and refused
RANGE otherwise (R77). A notice port is taken when it is DESK, refused REFUSED_STATE when it is another port and RANGE
above 11; a notice mask of 18 bits is taken, and one above refused RANGE (R156, R165). ZONE: the whole member set is
replaced, each ACTIVE program then has the overlay of R69 or none, and nothing else follows but that oldest entries
may leave frame stores (R59, R70). A generation is refused READ_ONLY, and an index past the table NO_SUCH, without
effect (R151). -/
def Obligations.WriteEntrySetsTheEntry : Prop :=
  ∀ (s : State) (p : PortNo) (rest : List Request) (tag : BitVec 16) (v : Nat),
    (∀ i : GainStep, v < 4294967296 → Serving s p (requestPayload tag 2
        (put8 4 ++ put8 0 ++ put16 i.val ++ put8 1 ++ (put8 1 ++ put32 v))) rest →
      exec .writeEntry s = .next (respond p (.response tag 2 .ok
          (put8 4 ++ put16 i.val ++ put8 2 ++ (put8 1 ++ put32 (min 32767 v)) ++
            (put8 2 ++ put32 (s.gains[i].generation + 1).toNat)))
        { s with requests := rest, gains := s.gains.set i ⟨min 32767 v, s.gains[i].generation + 1⟩ })) ∧
    (∀ f lo hi : Nat, (f, lo, hi) ∈ [(1, 100, 2000), (2, 1, 8), (3, 1, 30), (6, 0, 15), (7, 100, 2000),
        (8, 0, 250), (9, 0, 60), (10, 50, 100), (11, 10, 720), (12, 5, 40), (13, 0, 7)] →
      v < 4294967296 → Serving s p (requestPayload tag 2 (writeOne 7 0 f v)) rest →
      s.limits.leave < s.limits.join →
      let x := max lo (min hi v)
      let l := s.limits
      ∃ u, WriteTaken s u p tag .limits 0 ∧
        u = { s with requests := rest, racks := u.racks, limits := { l with
          sourceLostMs := if f = 1 then x else l.sourceLostMs, mixSlackMs := if f = 2 then x else l.mixSlackMs
          pendingS := if f = 3 then x else l.pendingS, leaveHoldS := if f = 6 then x else l.leaveHoldS
          silenceMs := if f = 7 then x else l.silenceMs, settleMs := if f = 8 then x else l.settleMs
          parkS := if f = 9 then x else l.parkS, readyThreshold := if f = 10 then x else l.readyThreshold
          loanMin := if f = 11 then x else l.loanMin, critical := if f = 12 then x else l.critical
          keyRetries := if f = 13 then x else l.keyRetries, generation := l.generation + 1 } } ∧
        ∀ g : PortNo, u.racks[g] = { s.racks[g] with chargeQueue := u.racks[g].chargeQueue } ∧
          u.racks[g].chargeQueue.Perm s.racks[g].chargeQueue ∧
          ((∀ r ∈ s.racks[g].chargeQueue, DockedOfLate s r) → InOrder (ChargeOrder u) u.racks[g].chargeQueue) ∧
          (s.racks[g].chargeQueue.Pairwise (ChargeOrder u) → u.racks[g].chargeQueue = s.racks[g].chargeQueue)) ∧
    (∀ x y : Nat, x < 4294967296 → y < 4294967296 →
      Serving s p (requestPayload tag 2 (writeTwo 7 0 4 x 5 y)) rest →
      (1 ≤ y → y < x → x ≤ 127 → ∃ u, WriteTaken s u p tag .limits 0 ∧
        u = { s with requests := rest, racks := u.racks, limits := { s.limits with
              join := x, leave := y, generation := s.limits.generation + 1 } } ∧
        ∀ g : PortNo, u.racks[g] = { s.racks[g] with chargeQueue := u.racks[g].chargeQueue } ∧
          u.racks[g].chargeQueue.Perm s.racks[g].chargeQueue) ∧
      (x ≤ y ∨ y < 1 ∨ 127 < x → WriteRefused s p rest tag .range)) ∧
    (v < 4294967296 → s.limits.leave < s.limits.join →
      (Serving s p (requestPayload tag 2 (writeOne 7 0 4 v)) rest → v ≤ s.limits.leave ∨ 127 < v →
        WriteRefused s p rest tag .range) ∧
      (Serving s p (requestPayload tag 2 (writeOne 7 0 14 v)) rest →
        (11 < v → WriteRefused s p rest tag .range) ∧
        ∀ q : PortNo, v = q.val →
          (s.ports[q].role ≠ .desk → WriteRefused s p rest tag .refusedState) ∧
          (s.ports[q].role = .desk → ∃ u, WriteTaken s u p tag .limits 0 ∧
            u = { s with requests := rest, racks := u.racks, limits := { s.limits with
                  noticePort := q, generation := s.limits.generation + 1 } })) ∧
      (Serving s p (requestPayload tag 2 (writeOne 7 0 15 v)) rest →
        (0x3FFFF < v → WriteRefused s p rest tag .range) ∧
        (v ≤ 0x3FFFF → ∃ u, WriteTaken s u p tag .limits 0 ∧
          u = { s with requests := rest, racks := u.racks, limits := { s.limits with
                noticeMask := BitVec.ofNat 18 v, generation := s.limits.generation + 1 } }))) ∧
    (∀ z : ZoneNo, v < 4096 → Serving s p (requestPayload tag 2
        (put8 5 ++ put8 0 ++ put16 z.val ++ put8 1 ++ (put8 1 ++ put32 v))) rest →
      ∃ u, exec .writeEntry s = .next (respond p (.response tag 2 .ok (entryResult u .zone z.val)) u) ∧
        u = { s with
              requests := rest, programs := u.programs, sources := u.sources
              zones := s.zones.set z ⟨BitVec.ofNat 12 v, s.zones[z].generation + 1⟩ } ∧
        (∀ q : ProgNo, u.programs[q].state = .active → u.programs[q].overlayAnn = chosenOverlay u q) ∧
        SourcesTrimmed s u ∧ ∀ q : ProgNo, u.programs[q] = { s.programs[q] with
          overlayAnn := u.programs[q].overlayAnn, overlay := u.programs[q].overlay }) ∧
    (∀ i : GainStep, Serving s p (requestPayload tag 2
        (put8 4 ++ put8 0 ++ put16 i.val ++ put8 1 ++ (put8 2 ++ put32 v))) rest →
      exec .writeEntry s =
        .next (respond p (.response tag 2 .readOnly []) { s with requests := rest })) ∧
    (∀ n : Nat, 16 ≤ n → n < 65536 → Serving s p (requestPayload tag 2
        (put8 4 ++ put8 0 ++ put16 n ++ put8 1 ++ (put8 1 ++ put32 v))) rest →
      exec .writeEntry s = .next (respond p (.response tag 2 .noSuch []) { s with requests := rest }))

/-- WRITE_ENTRY on SOURCE (R18, R19). A slot is referenced as the guide of an OPEN tour, as the interpreter of a
program of one, and while an announcement of it is ON. Gain step and mute: written, with the generation, and nothing
else; above 15, or other than 0 and 1, refused RANGE. Role: a code of none of the three is refused RANGE; a change is
refused REFUSED_STATE for a referenced slot and for one that an announcement names, and else written; a guide that is
none any more loses its hearing records (R87). Source id: 0 and 65535 and more, but for the absent code, are refused
RANGE; the id held changes nothing but the generation; another one, or none, is refused REFUSED_STATE for a referenced
slot and when another slot holds it; else the slot takes it, IDLE or UNUSED, with an empty store and no hearing
record. R87 says that the records go; that the slot's frozen mark is cleared with them, at a role change away from
GUIDE and at a new or cleared id, is the model's reading (log entry 18). -/
def Obligations.WriteEntrySetsASource : Prop :=
  ∀ (s : State) (p : PortNo) (rest : List Request) (tag : BitVec 16) (i : SourceSlot) (field v : Nat),
    v < 4294967296 → Serving s p (requestPayload tag 2 (writeOne 1 i.val field v)) rest →
    let referenced : Prop := (∃ t : TourNo, s.tours[t].state = .opened ∧ s.tours[t].guide = some i) ∨
      (∃ q : ProgNo, s.programs[q].mode = .interpreter ∧ s.programs[q].interpreter = some i ∧
        s.tours[tourOf q].state = .opened) ∨
      ∃ n : AnnNo, ∃ a, s.announcements[n] = some a ∧ a.slot = i ∧ a.state = .on
    let named : Prop := ∃ n : AnnNo, ∃ a, s.announcements[n] = some a ∧ a.slot = i
    (field = 3 → (v ≤ 15 → WriteTaken s { s with
          requests := rest
          sources := s.sources.set i
            { s.sources[i] with gainStep := Fin.ofNat 16 v, generation := s.sources[i].generation + 1 } }
        p tag .source i.val) ∧
      (15 < v → WriteRefused s p rest tag .range)) ∧
    (field = 4 → (v ≤ 1 → WriteTaken s { s with
          requests := rest
          sources := s.sources.set i
            { s.sources[i] with mute := v == 1, generation := s.sources[i].generation + 1 } }
        p tag .source i.val) ∧
      (1 < v → WriteRefused s p rest tag .range)) ∧
    (field = 2 → (v = 0 ∨ 3 < v → WriteRefused s p rest tag .range) ∧
      ∀ r : SourceRole, v = r.code →
        (r ≠ s.sources[i].role → referenced ∨ named → WriteRefused s p rest tag .refusedState) ∧
        (r = s.sources[i].role ∨ ¬ (referenced ∨ named) → WriteTaken s { s with
            requests := rest
            sources := s.sources.set i
              { s.sources[i] with role := r, generation := s.sources[i].generation + 1 }
            hearing := if s.sources[i].role = .guide ∧ r ≠ .guide then
              s.hearing.filter fun x => x.slot ≠ i else s.hearing
            guideFrozen := if s.sources[i].role = .guide ∧ r ≠ .guide then s.guideFrozen.set i false
              else s.guideFrozen }
          p tag .source i.val)) ∧
    (field = 1 → (v = 0 ∨ (65534 < v ∧ v ≠ 0xFFFFFFFF) → WriteRefused s p rest tag .range) ∧
      ∀ id : Option (BitVec 16), (id = none ∧ v = 0xFFFFFFFF) ∨
          (1 ≤ v ∧ v ≤ 65534 ∧ id = some (BitVec.ofNat 16 v)) →
        (id = s.sources[i].id → WriteTaken s { s with
            requests := rest
            sources := s.sources.set i { s.sources[i] with generation := s.sources[i].generation + 1 } }
          p tag .source i.val) ∧
        (id ≠ s.sources[i].id → referenced ∨ (id ≠ none ∧ ∃ j : SourceSlot, j ≠ i ∧ s.sources[j].id = id) →
          WriteRefused s p rest tag .refusedState) ∧
        (id ≠ s.sources[i].id → ¬ referenced →
          (id ≠ none → ∀ j : SourceSlot, j ≠ i → s.sources[j].id ≠ id) →
          ∃ u, WriteTaken s u p tag .source i.val ∧
            u.sources[i] = { s.sources[i] with
              id := id, store := [], newest := none, lostDeadline := none
              state := if id = none then .unused else .idle
              generation := s.sources[i].generation + 1 } ∧
            (∀ j : SourceSlot, j ≠ i → u.sources[j] = { s.sources[j] with store := u.sources[j].store } ∧
              u.sources[j].store <:+ s.sources[j].store) ∧
            u.hearing = (s.hearing.filter fun x => x.slot ≠ i) ∧
            u.guideFrozen = s.guideFrozen.set i false ∧ PortsKept s u ∧ NoticesGrow s u ∧
            u = { s with
                  requests := rest, sources := u.sources, hearing := u.hearing
                  guideFrozen := u.guideFrozen, programs := u.programs, ports := u.ports
                  notices := u.notices, noticeOverflow := u.noticeOverflow, log := u.log }))

/-- WRITE_ENTRY on TOUR: the class is written with the generation, in either state of the tour, and the wait lists
stand in the order of the new ranks; no carrier changes; above 3 it is refused RANGE, and any other field READ_ONLY
(R23, R29, R96). On PROGRAM: language and steps are written in every state, and refused RANGE above 15 (R34); carry
always decides wanted anew (R26); INTERPRETER mode takes an INTERPRETER's slot that no other program has, and is
refused RANGE for a base program, and REFUSED_STATE otherwise and for an ACTIVE program that it would change; LINKED
mode takes a target that is neither the program itself nor LINKED, for a program that is no target (R32). -/
def Obligations.WriteEntrySetsATourOrAProgram : Prop :=
  ∀ (s : State) (a : PortNo) (rest : List Request) (tag : BitVec 16) (v : Nat), v < 4294967296 →
    (∀ t : TourNo, (∀ f ∈ [1, 2, 4, 5, 6], Serving s a (requestPayload tag 2 (writeOne 2 t.val f v)) rest →
        WriteRefused s a rest tag .readOnly) ∧
      (Serving s a (requestPayload tag 2 (writeOne 2 t.val 3 v)) rest →
        (3 < v → WriteRefused s a rest tag .range) ∧
        (v ≤ 3 → ∃ u, WriteTaken s u a tag .tour t.val ∧
          u = { s with
                requests := rest, galleries := u.galleries
                tours := s.tours.set t { s.tours[t] with
                  priority := Fin.ofNat 4 v, generation := s.tours[t].generation + 1 } } ∧
          ∀ g : PortNo, u.galleries[g] = { s.galleries[g] with waitList := u.galleries[g].waitList } ∧
            u.galleries[g].waitList.Perm s.galleries[g].waitList ∧
            (s.galleries[g].waitList.Pairwise (fun x y => ranksAbove s x.program y.program = true) →
              (∀ w ∈ s.galleries[g].waitList, tourOf w.program = t →
                s.programs[w.program].wanted = true) →
              u.galleries[g].waitList.Pairwise fun x y => ranksAbove u x.program y.program = true)))) ∧
    (∀ p : ProgNo,
      (∀ f ∈ [1, 5, 6, 7], Serving s a (requestPayload tag 2 (writeOne 3 p.val f v)) rest →
        (15 < v → WriteRefused s a rest tag .range) ∧
        (v ≤ 15 → Settled s p → (∀ q, s.programs[p].target = some q → Settled s q) →
          WriteTaken s { s with requests := rest, programs := s.programs.set p { s.programs[p] with
              language := if f = 1 then Fin.ofNat 16 v else s.programs[p].language
              voiceStep := if f = 5 then Fin.ofNat 16 v else s.programs[p].voiceStep
              floorStep := if f = 6 then Fin.ofNat 16 v else s.programs[p].floorStep
              fallbackStep := if f = 7 then Fin.ofNat 16 v else s.programs[p].fallbackStep
              generation := s.programs[p].generation + 1 } } a tag .program p.val)) ∧
      (Serving s a (requestPayload tag 2 (writeOne 3 p.val 8 v)) rest →
        (1 < v → WriteRefused s a rest tag .range) ∧
        (v ≤ 1 → ∃ u, WriteTaken s u a tag .program p.val ∧ u.programs[p].carryAlways = (v == 1) ∧
          u.programs[p].generation = s.programs[p].generation + 1 ∧
          (u.programs[p].wanted = true ↔ s.tours[tourOf p].state = .opened ∧
            s.programs[p].mode ≠ .unset ∧
            (0 < s.programs[p].keyed + s.programs[p].issued ∨ v = 1)) ∧
          (u.programs[p].wanted = true → u.programs[p].state = .active) ∧
          u.tours = s.tours ∧ u.receivers = s.receivers ∧ u.hearing = s.hearing ∧ SettingsKept s u)) ∧
      (∀ i : SourceSlot, Serving s a (requestPayload tag 2 (writeTwo 3 p.val 2 2 3 i.val)) rest →
        (langOf p = 0 → WriteRefused s a rest tag .range) ∧
        (langOf p ≠ 0 → (s.programs[p].state = .active ∧
              (s.programs[p].mode ≠ .interpreter ∨ s.programs[p].interpreter ≠ some i)) ∨
            s.sources[i].role ≠ .interpreter ∨ s.sources[i].state = .unused ∨
            (∃ q : ProgNo, q ≠ p ∧ s.programs[q].mode = .interpreter ∧
              s.programs[q].interpreter = some i) →
          WriteRefused s a rest tag .refusedState) ∧
        (langOf p ≠ 0 → s.programs[p].state ≠ .active → s.sources[i].role = .interpreter →
          s.sources[i].state ≠ .unused →
          (∀ q : ProgNo, q ≠ p → s.programs[q].mode = .interpreter →
            s.programs[q].interpreter ≠ some i) →
          ∃ u, WriteTaken s u a tag .program p.val ∧ u.programs[p].mode = .interpreter ∧
            u.programs[p].interpreter = some i ∧ u.programs[p].target = none ∧
            u.tours = s.tours ∧ u.receivers = s.receivers ∧ u.hearing = s.hearing)) ∧
      ∀ q : ProgNo, Serving s a (requestPayload tag 2 (writeTwo 3 p.val 2 3 4 q.val)) rest →
        (langOf p = 0 ∨ q = p ∨ s.programs[q].mode = .linked → WriteRefused s a rest tag .range) ∧
        (langOf p ≠ 0 → q ≠ p → s.programs[q].mode ≠ .linked → s.programs[p].state ≠ .active →
          ((∃ x : ProgNo, x ≠ p ∧ s.programs[x].target = some p) →
            WriteRefused s a rest tag .refusedState) ∧
          ((∀ x : ProgNo, x ≠ p → s.programs[x].target ≠ some p) →
            ∃ u, WriteTaken s u a tag .program p.val ∧ u.programs[p].mode = .linked ∧
              u.programs[p].target = some q ∧ u.programs[p].interpreter = none ∧
              u.tours = s.tours ∧ u.receivers = s.receivers ∧ u.hearing = s.hearing)))

/-- WRITE_ENTRY on PORT (R157, R166, R170): a code of no role is refused RANGE, and a write that leaves no DESK port
REFUSED_STATE. A DOWN port takes role and generation, and nothing follows but the notice port, which moves to the
lowest DESK port when its own has lost that role (R156). An UP port leaves its old role and takes the new one: a
gallery gets its map, a rack starts its inventory; a former gallery loses records, set members and carriers, a former
rack goes offline as at a link-down (R145), and a former desk's waiting requests leave the queue (R150); its transmit
queue stays. The desk's own port is answered first. On RACK, the grant limit is clamped to 1 to 40; grants above it
are revoked, the most recent first, and under it more may be issued; one grant too many hands one REVOKE (R140). What
key orders can be sent then are (log entry 20). -/
def Obligations.WriteEntryChangesARoleOrAGrantLimit : Prop :=
  ∀ (s : State) (a : PortNo) (rest : List Request) (tag : BitVec 16) (v : Nat), v < 4294967296 →
    (∀ q : PortNo, Serving s a (requestPayload tag 2 (writeOne 6 q.val 1 v)) rest →
      (3 < v → WriteRefused s a rest tag .range) ∧
      ∀ r : PortRole, v = r.code → r ≠ s.ports[q].role →
        (r ≠ .desk → (∀ x : PortNo, x ≠ q → s.ports[x].role ≠ .desk) →
          WriteRefused s a rest tag .refusedState) ∧
        (r = .desk ∨ (∃ x : PortNo, x ≠ q ∧ s.ports[x].role = .desk) → ∃ w : State,
          w = { s with
                requests := rest, limits := { s.limits with noticePort := w.limits.noticePort }
                ports := s.ports.set q { s.ports[q] with
                  role := r, generation := s.ports[q].generation + 1 } } ∧
          (w.ports[s.limits.noticePort].role = .desk → w.limits.noticePort = s.limits.noticePort) ∧
          (w.ports[s.limits.noticePort].role ≠ .desk → w.ports[w.limits.noticePort].role = .desk ∧
            ∀ x : PortNo, x < w.limits.noticePort → w.ports[x].role ≠ .desk) ∧
          (q ≠ a → s.ports[q].link = .down → WriteTaken s (sendKeys w) a tag .port q.val) ∧
          (q ≠ a → s.ports[q].link = .up → s.ports[q].role = .unused →
            (r = .desk → WriteTaken s (sendKeys w) a tag .port q.val) ∧
            (r = .gallery → WriteTaken s (sendKeys (sendMap q w)) a tag .port q.val) ∧
            (r = .rack → WriteTaken s (sendKeys (startInventory q w)) a tag .port q.val)) ∧
          (q ≠ a → s.ports[q].link = .up → s.ports[q].role = .gallery → ∃ u,
            (r = .unused ∨ r = .desk → WriteTaken s (sendKeys u) a tag .port q.val) ∧
            (r = .rack → WriteTaken s (sendKeys (startInventory q u)) a tag .port q.val) ∧
            u.ports[q] = w.ports[q] ∧ u.hearing = (s.hearing.filter fun x => x.port ≠ q) ∧
            (∀ n : TourNo, q ∉ u.tours[n].gallerySet) ∧ u.galleries[q] = Gallery.initial ∧
            u.limits = w.limits ∧ u.receivers = s.receivers ∧ u.racks = s.racks) ∧
          (q ≠ a → s.ports[q].link = .up → s.ports[q].role = .rack → ∃ u,
            (r = .unused ∨ r = .desk → WriteTaken s (sendKeys u) a tag .port q.val) ∧
            (r = .gallery → WriteTaken s (sendKeys (sendMap q u)) a tag .port q.val) ∧
            WentOffline w u q) ∧
          (q ≠ a → s.ports[q].link = .up → s.ports[q].role = .desk →
            let u : State := { w with requests := rest.filter fun x => x.port ≠ q }
            (r = .unused → WriteTaken s (sendKeys u) a tag .port q.val) ∧
            (r = .gallery → WriteTaken s (sendKeys (sendMap q u)) a tag .port q.val) ∧
            (r = .rack → WriteTaken s (sendKeys (startInventory q u)) a tag .port q.val)) ∧
          (q = a → s.ports[q].role = .desk → s.ports[q].link = .up → ∃ y t,
            y = respond a (.response tag 2 .ok (entryResult w .port q.val))
              ({ s with requests := rest }.modPort a fun e => { e with generation := e.generation + 1 }) ∧
            t = { y with
                  ports := y.ports.set a { y.ports[a] with role := r }, limits := w.limits
                  requests := rest.filter fun x => x.port ≠ a } ∧
            (r = .unused → exec .writeEntry s = .next (sendKeys t)) ∧
            (r = .gallery → exec .writeEntry s = .next (sendKeys (sendMap a t))) ∧
            (r = .rack → exec .writeEntry s = .next (sendKeys (startInventory a t)))))) ∧
    ∀ g : PortNo, Serving s a (requestPayload tag 2 (writeOne 9 g.val 4 v)) rest →
      ∃ u, WriteTaken s u a tag .rack g.val ∧ u.racks[g].grantLimit = max 1 (min 40 v) ∧
        u.racks[g].generation = s.racks[g].generation + 1 ∧
        (∀ h : PortNo, h ≠ g → u.racks[h] = s.racks[h] ∧ u.ports[h] = s.ports[h]) ∧
        u.programs = s.programs ∧ u.pool = s.pool ∧ u.limits = s.limits ∧
        (s.racks[g].grants.Nodup →
          (max 1 (min 40 v) ≤ s.racks[g].grants.length →
            u.racks[g].grants = s.racks[g].grants.take (max 1 (min 40 v))) ∧
          (s.racks[g].grants.length ≤ max 1 (min 40 v) → s.racks[g].grants <+: u.racks[g].grants ∧
            u.racks[g].grants.length ≤ max 1 (min 40 v))) ∧
        ∀ (older : List RecNo) (r : RecNo) (d : ReceiverData) (x : PortNo) (k : RackSlot),
          s.racks[g].grants = older ++ [r] → r ∉ older → older.length = max 1 (min 40 v) →
          s.receivers[r].data = some d → d.place = some (x, k) →
          u.ports[g] = (handFrame g (.order (.revoke k)) s).ports[g] ∧
          u.receivers[r].data = some { d with charging := false }

/-- COND_WRITE of a field of any table under a test of Table 9-3, plain and negated: EQ, LT or LE, the value of the
test field as it stands and the operand being compared as whole numbers, and an absent value greater than every
operand (R154). In this order: READ_ONLY for a field that is not writable, RANGE for a value out of range, COND_FALSE
when the test does not hold, REFUSED_STATE, each without effect; else the write is that of WRITE_ENTRY (R151, R153),
the role change of the desk's own port coming after the response (R157). Whatever its status, the response carries the
entry as it stood before. For a gain under a test of its generation, the entry and the write are spelled out (R49). -/
def Obligations.CondWriteWritesUnderItsTest : Prop :=
  (∀ (s : State) (p : PortNo) (rest : List Request) (tag : BitVec 16) (t : Table)
    (index test cond f x v : Nat) (negate : Bool), v < 4294967296 → x < 4294967296 →
    index < t.entries → t.mayTest test = true → t.hasField f = true → 1 ≤ cond → cond ≤ 3 →
    Serving s p (requestPayload tag 3 (put8 t.code ++ put8 0 ++ put16 index ++ put8 test ++ put8 cond ++
      put8 (if negate then 1 else 0) ++ put32 x ++ put8 1 ++ (put8 f ++ put32 v))) rest →
    let value := testValue s t index test
    let plain : Prop := (cond = 1 ∧ value = some x) ∨ (cond = 2 ∧ ∃ y, value = some y ∧ y < x) ∨
      (cond = 3 ∧ ∃ y, value = some y ∧ y ≤ x)
    let holds : Prop := plain ↔ negate = false
    let q : WriteRequest := ⟨t.code, index, [(f, v)]⟩
    let s' : State := { s with requests := rest }
    let answer (status : Status) (u : State) : State :=
      respond p (.response tag 3 status (entryResult s t index)) u
    (t.isWritable f = false → exec .condWrite s = .next (answer .readOnly s')) ∧
    (t.isWritable f = true →
      (writeRange s t index [(f, v)] = true → exec .condWrite s = .next (answer .range s')) ∧
      (writeRange s t index [(f, v)] = false →
        (¬ holds → exec .condWrite s = .next (answer .condFalse s')) ∧
        (holds →
          (writeRefused s t index [(f, v)] = true → exec .condWrite s = .next (answer .refusedState s')) ∧
          (writeRefused s t index [(f, v)] = false →
            (ownRoleChange p t q s = none →
              let u := applyWrite t index [(f, v)] s'
              exec .condWrite s = .next (answer .ok u) ∧
              WriteTaken { s with requests := ⟨p, requestPayload tag 2 (writeOne t.code index f v)⟩ :: rest }
                u p tag t index) ∧
            ∀ r, ownRoleChange p t q s = some r → exec .condWrite s = .next (sendKeys (changeRole p r
              (answer .ok (s'.modPort p fun e => { e with generation := e.generation + 1 }))))))))) ∧
  ∀ (s : State) (p : PortNo) (rest : List Request) (tag : BitVec 16) (i : GainStep) (x v : Nat)
    (negate : Bool), v < 4294967296 → x < 4294967296 →
    Serving s p (requestPayload tag 3 (put8 4 ++ put8 0 ++ put16 i.val ++ put8 2 ++ put8 1 ++
      put8 (if negate then 1 else 0) ++ put32 x ++ put8 1 ++ (put8 1 ++ put32 v))) rest →
    ((s.gains[i].generation.toNat = x ↔ negate = false) →
      exec .condWrite s = .next (respond p (.response tag 3 .ok
          (put8 4 ++ put16 i.val ++ put8 2 ++ (put8 1 ++ put32 s.gains[i].value) ++
            (put8 2 ++ put32 s.gains[i].generation.toNat)))
        { s with requests := rest, gains := s.gains.set i ⟨min 32767 v, s.gains[i].generation + 1⟩ })) ∧
    (¬ (s.gains[i].generation.toNat = x ↔ negate = false) →
      exec .condWrite s = .next (respond p (.response tag 3 .condFalse
          (put8 4 ++ put16 i.val ++ put8 2 ++ (put8 1 ++ put32 s.gains[i].value) ++
            (put8 2 ++ put32 s.gains[i].generation.toNat)))
        { s with requests := rest }))

/-- CLEAR_FLAGS makes a program's CLIP flag no and its clip count 0 (R158). READ_STATUS reports the hub-wide values
and then makes the notice overflow flag no (R159). RELEASE_LOG reports the delivery log and then clears it (R160).
SAVE_CONFIG takes the snapshot of the configuration, or answers BUSY without effect while a save runs (R161). A
request of a kind that Table 11-8 does not list is refused MALFORMED with its kind echoed, and so is a READ_STATUS,
RELEASE_LOG, SAVE_CONFIG or RESTART with operands; a refused request has no effect but its response (R151). -/
def Obligations.ServiceRequestsAnswer : Prop :=
  (∀ (s : State) (p : PortNo) (rest : List Request) (tag : BitVec 16),
     (∀ q : ProgNo, Serving s p (requestPayload tag 9 (put8 q.val ++ put8 0)) rest →
       exec .clearFlags s = .next (respond p (.response tag 9 .ok [])
         (({ s with requests := rest }).modProgram q fun r => { r with clip := false, clipCount := 0 }))) ∧
     (Serving s p (requestPayload tag 10 []) rest →
       exec .readStatus s = .next (respond p (.response tag 10 .ok
         (put32 s.clock.toNat ++ opt16 (s.lastUnknown.map (·.toNat)) ++ logBytes s.log ++
           put8 (yesNo s.noticeOverflow) ++ put8 s.notices.length ++ put8 (rest.length + 1) ++
           put8 s.configStatus.code ++ put8 (yesNo s.saving.isSome)))
         { s with requests := rest, noticeOverflow := false })) ∧
     (Serving s p (requestPayload tag 11 []) rest →
       exec .releaseLog s = .next (respond p (.response tag 11 .ok (logBytes s.log))
         { s with requests := rest, log := ⟨none, 0⟩ })) ∧
     (Serving s p (requestPayload tag 12 []) rest →
       (s.saving = none → exec .saveConfig s = .next (respond p (.response tag 12 .ok [])
         { s with requests := rest, saving := some (imageOf s) })) ∧
       (s.saving ≠ none → exec .saveConfig s = .next (respond p (.response tag 12 .busy [])
         { s with requests := rest })))) ∧
  (∀ (s : State) (p : PortNo) (rest : List Request) (tag : BitVec 16) (kind : Nat) (operands : List Byte),
     Serving s p (requestPayload tag kind operands) rest → kind < 256 →
     (kind = 0 ∨ 13 < kind → exec .unknownRequestKind s = .next (respond p
       (.response tag (BitVec.ofNat 8 kind) .malformed []) { s with requests := rest })) ∧
     (operands ≠ [] →
       (kind = 10 → exec .readStatus s = .next (respond p (.response tag 10 .malformed [])
         { s with requests := rest })) ∧
       (kind = 11 → exec .releaseLog s = .next (respond p (.response tag 11 .malformed [])
         { s with requests := rest })) ∧
       (kind = 12 → exec .saveConfig s = .next (respond p (.response tag 12 .malformed [])
         { s with requests := rest })) ∧
       (kind = 13 → exec .restart s = .next (respond p (.response tag 13 .malformed [])
         { s with requests := rest }))))

/-- RESTART (R162 and the rules it names): the response goes first, to a DESK port. No request or announcement is
left; the notices are cleared, and so is the delivery log, before the maps of the UP galleries and then the inventory
orders of the UP racks are handed on, so that the log holds only what of these is dropped at a full queue, with its
DELIVERY_ERROR, and HUB_STARTED of detail 1 comes last (R173); sources keep their settings, with empty stores, IDLE
when they have an id (R2); no hearing record (R72), gallery set (R20) or carrier in use (R90); no CLIP flag (R25);
receivers keep id, place, dock stamp and battery, none KEYING or charging, no pool and no order (R114, R118, R119);
every rack offline with its grant limit kept, an inventory running where its port is UP (R134); the order of these
parts is log entry 31's; settings, clock, memory and receiver counts stay. -/
def Obligations.RestartKeepsSettingsAndReceivers : Prop :=
  ∀ (s : State) (p : PortNo) (rest : List Request) (tag : BitVec 16),
    Serving s p (requestPayload tag 13 []) rest →
    ∃ t, exec .restart s = .next t ∧ SettingsKept s t ∧ PortsKept s t ∧
      (∀ g : PortNo, t.ports[g] = (match s.ports[g].role with
        | .unused => s
        | .gallery => handFrame g (.carrierMap (List.replicate 8 (.free, none))) s
        | .rack => handFrame g (.order .inventory) s
        | .desk => if g = p then handFrame g (.response tag 13 .ok []) s else s).ports[g]) ∧
      t.requests = [] ∧ t.noticeOverflow = false ∧
      (let full (role : PortRole) : List PortNo := (List.finRange 12).filter fun g =>
         s.ports[g].role = role ∧ s.ports[g].link = .up ∧ 16 ≤ s.ports[g].queue.length
       let drops : List Drop := (full .gallery).map (fun g => ⟨g, 0x03, none, s.clock⟩) ++
         (full .rack).map fun g => ⟨g, 0x05, none, s.clock⟩
       t.log = ⟨drops.head?, drops.length⟩ ∧
       t.notices =
         (match drops.head? with
          | some d => if s.limits.enabled .deliveryError then
              [⟨.deliveryError, s.clock, some (BitVec.ofNat 16 d.port.val), none, d.kind.setWidth 16⟩] else []
          | none => []) ++
         if s.limits.enabled .hubStarted then
           [⟨.hubStarted, s.clock, some (BitVec.ofNat 16 s.configStatus.code), none, 1⟩] else []) ∧
      (∀ i : SourceSlot, t.sources[i] = { s.sources[i] with
        store := [], newest := none, lostDeadline := none
        state := if s.sources[i].id = none then .unused else .idle }) ∧
      t.hearing = [] ∧
      (∀ n : TourNo, t.tours[n] = { s.tours[n] with gallerySet := [], guideFrozen := false }) ∧
      (∀ n : AnnNo, t.announcements[n] = none) ∧
      (∀ g : PortNo, t.galleries[g].carriers = Vector.replicate 8 ⟨.free, none, none, none⟩ ∧
        t.galleries[g].waitList = [] ∧ t.galleries[g].mapRefresh =
          if s.ports[g].role = .gallery ∧ s.ports[g].link = .up then some (s.clock + 1000) else none) ∧
      (∀ q : ProgNo, t.programs[q].clip = false ∧ t.programs[q].clipCount = 0 ∧
        t.programs[q].overlayAnn = none ∧ t.programs[q].keyed = s.programs[q].keyed ∧
        t.programs[q].issued = s.programs[q].issued) ∧
      (∀ r : RecNo, t.receivers[r].data.map (fun d => (d.id, d.place, d.dockStamp, d.battery)) =
        s.receivers[r].data.map fun d => (d.id, d.place, d.dockStamp, d.battery)) ∧
      (∀ (r : RecNo) (d : ReceiverData), t.receivers[r].data = some d →
        d.state ≠ .keying ∧ d.charging = false) ∧
      t.pool = [] ∧ t.outfits = [] ∧
      (∀ g : PortNo, t.racks[g].online = false ∧ t.racks[g].grants = [] ∧ t.racks[g].keyQueue = [] ∧
        t.racks[g].inFlight = false ∧
        (t.racks[g].inventory = true ↔ s.ports[g].role = .rack ∧ s.ports[g].link = .up) ∧
        t.racks[g].grantLimit = s.racks[g].grantLimit) ∧
      t.clock = s.clock ∧ t.memory = s.memory ∧ t.saving = s.saving ∧ t.configStatus = s.configStatus
end

