-- ==== Sys2Proof/Laws/Keeps.lean ====
section
/-! SUPPORT. What an event can do to a state, said once. A property of states that a few primitive changes
keep is kept by every operation that is made of them: `MixKeeps` for the mix engine, `FollowKeeps` for
what follows a change of a source or a count, `Keeps` for every event of the running hub but the writes
of the configuration, link events and power. -/

namespace Sys2Proof.Laws

open Sys2Proof.Machine

variable {P : State → Prop}

/-- Kept by the primitive changes of the mix engine: a store trimmed at its front, a program record, a
notice, a frame. -/
structure MixKeeps (P : State → Prop) : Prop where
  trim : ∀ (s : State) i q, P s →
    P (s.modSource i fun r => { r with store := r.store.dropWhile q })
  program : ∀ (s : State) p f, P s → P (s.modProgram p f)
  notice : ∀ k a b d s, P s → P (queueNotice k a b d s)
  frame : ∀ p f s, P s → P (handFrame p f s)

/-- Kept as well by the primitive changes of the blocks that follow a source or a count: carriers, tour
records whose gallery set keeps its bound, announcements, the hearing table within its bound. -/
structure FollowKeeps (P : State → Prop) : Prop extends MixKeeps P where
  gallery : ∀ (s : State) g f, P s → P (s.modGallery g f)
  tour : ∀ (s : State) t f, (s.tours[t].gallerySet.length ≤ 3 → (f s.tours[t]).gallerySet.length ≤ 3) →
    P s → P (s.modTour t f)
  announcement : ∀ (s : State) n x, P s → P (s.setAnnouncement n x)
  hearing : ∀ (s : State) l, (s.hearing.length ≤ 96 → l.length ≤ 96) → P s → P { s with hearing := l }
  frozen : ∀ (s : State) v, P s → P { s with guideFrozen := v }

/-- Kept as well by the primitive changes of the source unit, the fleet unit, the ports and the control
engine; but not by the writes of limits, gains, zones and roles, nor by load, save and power. -/
structure Keeps (P : State → Prop) : Prop extends FollowKeeps P where
  source : ∀ (s : State) i f, (s.sources[i].store.length ≤ 4 → (f s.sources[i]).store.length ≤ 4) →
    P s → P (s.modSource i f)
  unknown : ∀ (s : State) v, P s → P { s with lastUnknown := v }
  receiver : ∀ (s : State) r f, P s → P (s.modReceiver r f)
  rack : ∀ (s : State) g f, P s → P (s.modRack g f)
  pool : ∀ (s : State) l, P s → P { s with pool := l }
  outfits : ∀ (s : State) l, (s.outfits.length ≤ 8 → l.length ≤ 8) → P s → P { s with outfits := l }
  nextOrder : ∀ (s : State) n, P s → P { s with nextOrder := n }
  drop : ∀ p f s, P s → P (recordDrop p f s)
  link : ∀ (s : State) p l, P s → P (s.modPort p fun e => { e with link := l, queue := [], line := none })
  sent : ∀ (s : State) p, P s → P (startLine p (s.modPort p fun e => { e with line := none }))
  requests : ∀ (s : State) l, (s.requests.length ≤ 8 → l.length ≤ 8) → P s →
    P { s with requests := l }
  notices : ∀ (s : State) l, (s.notices.length ≤ 16 → l.length ≤ 16) → P s → P { s with notices := l }
  overflow : ∀ (s : State) b, P s → P { s with noticeOverflow := b }
  log : ∀ (s : State) l, P s → P { s with log := l }
  snapshot : ∀ s : State, P s → P { s with saving := some (imageOf s) }
  saved : ∀ s : State, P s → P { s with saving := none }

/-! ### Lists of operations -/

/-- An operation for each member of a list keeps what it keeps for each. -/
theorem forEach_keeps {α : Type} {f : α → State → State} (xs : List α)
    (hf : ∀ x s, P s → P (f x s)) (s : State) (hs : P s) : P (forEach xs f s) := by
  induction xs generalizing s with
  | nil => exact hs
  | cons x xs ih => exact ih _ (hf x s hs)

/-- The same, for an operation that keeps it for the list's members only. -/
theorem forEach_keeps_mem {α : Type} {f : α → State → State} (xs : List α)
    (hf : ∀ x ∈ xs, ∀ s, P s → P (f x s)) (s : State) (hs : P s) : P (forEach xs f s) := by
  induction xs generalizing s with
  | nil => exact hs
  | cons x xs ih =>
    exact ih (fun y hy => hf y (List.mem_cons_of_mem _ hy)) _ (hf x List.mem_cons_self s hs)

/-- Either branch of a decision keeps it. -/
theorem ite_keeps {c : Prop} [Decidable c] {a b : State} (ha : P a) (hb : P b) :
    P (if c then a else b) := by split <;> assumption


/-! ### Chapter 3: the mix engine -/

namespace MixKeeps

variable (h : MixKeeps P)
include h

theorem recordClip (p n) (s : State) (hs : P s) : P (recordClip p n s) := by
  unfold Machine.recordClip; dsimp only; split
  · exact h.program _ _ _ hs
  · exact h.notice _ _ _ _ _ (h.program _ _ _ hs)

theorem clearClip (p) (s : State) (hs : P s) : P (clearClip p s) := h.program _ _ _ hs

theorem applyRemoval (i) (s : State) (hs : P s) : P (applyRemoval i s) := by
  unfold Machine.applyRemoval; dsimp only; split
  · exact hs
  · exact h.trim _ _ _ hs

theorem applyRemovalTo (i) (s : State) (hs : P s) : P (applyRemovalTo i s) := by
  cases i with
  | none => exact hs
  | some i => exact h.applyRemoval i s hs

theorem dropCursors (i p) (s : State) (hs : P s) : P (dropCursors i p s) := by
  unfold Machine.dropCursors; exact h.program _ _ _ hs

theorem concealReader (p k) (s : State) (hs : P s) : P (concealReader p k s).1 := by
  unfold Machine.concealReader; dsimp only; exact h.program s p _ hs

theorem answerTake (p k i a) (s : State) (hs : P s) : P (answerTake p k i a s).1 := by
  cases a with
  | none => exact h.concealReader p k s hs
  | some e => exact h.applyRemoval _ _ (h.program _ _ _ hs)

theorem leadSamples (p input) (s : State) (hs : P s) : P (leadSamples p input s).1 := by
  cases input with
  | conceal => exact h.concealReader p _ s hs
  | target b => unfold Machine.leadSamples; dsimp only; exact h.program s p _ hs
  | take n =>
    unfold Machine.leadSamples; dsimp only; split
    · exact h.concealReader p _ s hs
    · exact h.answerTake _ _ _ _ s hs

theorem floorSamples (p) (s : State) (hs : P s) : P (floorSamples p s).1 := by
  unfold Machine.floorSamples; split
  · exact hs
  · exact h.answerTake _ _ _ _ s hs

theorem overlaySamples (p) (s : State) (hs : P s) : P (overlaySamples p s).1 := by
  unfold Machine.overlaySamples; split
  · exact hs
  · exact h.answerTake _ _ _ _ s hs

theorem mixBlock (p input) (s : State) (hs : P s) : P (mixBlock p input s).1 :=
  h.overlaySamples p _ (h.floorSamples p _ (h.leadSamples p input s hs))

theorem deliver (p b) (s : State) (hs : P s) : P (deliver p b s) := by
  refine forEach_keeps _ (fun g s hs => ?_) s hs
  split
  · exact hs
  · exact h.frame _ _ _ hs

theorem countAndSend (p cs) (s : State) (hs : P s) : P (countAndSend p cs s) := by
  unfold Machine.countAndSend; dsimp only
  refine h.deliver _ _ _ ?_
  split
  · exact h.recordClip _ _ _ (h.program _ _ _ hs)
  · exact h.program _ _ _ hs

theorem setBlockDeadline (p) (s : State) (hs : P s) : P (setBlockDeadline p s) := h.program _ _ _ hs

theorem linkedBlock (b q) (s : State) (hs : P s) : P (linkedBlock b q s) :=
  h.setBlockDeadline _ _ (h.countAndSend _ _ _ (h.mixBlock _ _ _ hs))

theorem blockEvent (p input) (s : State) (hs : P s) : P (blockEvent p input s) :=
  h.setBlockDeadline _ _ (forEach_keeps _ (fun q t ht => h.linkedBlock _ q t ht) _
    (h.countAndSend _ _ _ (h.mixBlock _ _ _ hs)))

theorem catchUpRounds (n p) (s : State) (hs : P s) : P (catchUpRounds n p s) := by
  induction n generalizing s with
  | zero => exact hs
  | succ n ih =>
    unfold Machine.catchUpRounds; split
    · exact hs
    · exact ih _ (h.blockEvent _ _ _ hs)

theorem catchUp (p) (s : State) (hs : P s) : P (catchUp p s) := by
  unfold Machine.catchUp; split
  · exact hs
  · exact h.catchUpRounds _ _ _ hs

theorem arrivalAt (i n p) (s : State) (hs : P s) : P (arrivalAt i n p s) := by
  unfold Machine.arrivalAt; dsimp only
  split
  · split
    · exact h.catchUp _ _ (h.blockEvent _ _ _ hs)
    · split
      · exact h.catchUp _ _ (h.blockEvent _ _ _ hs)
      · exact hs
  · exact hs

theorem entryArrived (i n) (s : State) (hs : P s) : P (entryArrived i n s) :=
  forEach_keeps _ (fun p t ht => h.arrivalAt i n p t ht) s hs

theorem advanceLead (p) (s : State) (hs : P s) : P (advanceLead p s) := by
  unfold Machine.advanceLead; split
  · exact hs
  · exact h.applyRemovalTo _ _ (h.program _ _ _ hs)

theorem blockExpiry (p) (s : State) (hs : P s) : P (blockExpiry p s) := by
  unfold Machine.blockExpiry; dsimp only
  split
  · split
    · exact h.blockEvent _ _ _ hs
    · split
      · exact hs
      · exact h.catchUp _ _ (h.advanceLead _ _ (h.blockEvent _ _ _ hs))
  · exact hs

/-! ### Chapter 2 and 4.5: programs and overlays -/

theorem chooseOverlay (p) (s : State) (hs : P s) : P (chooseOverlay p s) := by
  unfold Machine.chooseOverlay; dsimp only
  split
  · exact hs
  · split
    · exact hs
    · exact h.applyRemovalTo _ _ (h.program _ _ _ hs)

theorem chooseAllOverlays (s : State) (hs : P s) : P (chooseAllOverlays s) :=
  forEach_keeps _ (fun p t ht => h.chooseOverlay p t ht) s hs

theorem chooseTourOverlays (t) (s : State) (hs : P s) : P (chooseTourOverlays t s) :=
  forEach_keeps _ (fun p t ht => h.chooseOverlay p t ht) s hs

theorem derivePace (p) (s : State) (hs : P s) : P (derivePace p s) := by
  unfold Machine.derivePace; dsimp only
  split
  · exact hs
  · split
    · exact hs
    · exact h.program _ _ _ hs

theorem moveReading (p c) (s : State) (hs : P s) : P (moveReading p c s) := by
  unfold Machine.moveReading; dsimp only
  refine h.applyRemovalTo _ _ (h.applyRemovalTo _ _ ?_)
  cases c <;> exact h.program _ _ _ hs

theorem deriveVoice (p) (s : State) (hs : P s) : P (deriveVoice p s) := by
  unfold Machine.deriveVoice; dsimp only
  split
  · exact hs
  · split
    · exact h.derivePace _ _ hs
    · exact h.catchUp _ _ (h.derivePace _ _ (h.moveReading _ _ _ hs))

theorem deriveLinkers (p) (s : State) (hs : P s) : P (deriveLinkers p s) := by
  refine forEach_keeps _ (fun q t ht => ?_) s hs
  split
  · exact h.derivePace _ _ ht
  · exact ht

theorem enterActive (p) (s : State) (hs : P s) : P (enterActive p s) :=
  h.deriveLinkers _ _ (h.setBlockDeadline _ _ (h.chooseOverlay _ _
    (h.program _ _ _ (h.program _ _ _ (h.program _ _ _ hs)))))

theorem leaveActive (p) (s : State) (hs : P s) : P (leaveActive p s) :=
  h.deriveLinkers _ _ (forEach_keeps _ (fun i t ht => h.applyRemoval i t ht) _ (h.program _ _ _ hs))

theorem settleState (p) (s : State) (hs : P s) : P (settleState p s) := by
  unfold Machine.settleState; dsimp only
  split
  · split
    · exact hs
    · exact h.enterActive _ _ hs
  · split
    · exact h.leaveActive _ _ hs
    · exact h.program _ _ _ hs

end MixKeeps

/-! ### Chapter 6: the carriers -/

namespace FollowKeeps

variable (h : FollowKeeps P)
include h

theorem carrier (g c f) (s : State) (hs : P s) : P (s.modCarrier g c f) := h.gallery _ _ _ hs

theorem sendMap (g) (s : State) (hs : P s) : P (sendMap g s) := by
  unfold Machine.sendMap; exact h.gallery _ _ _ (h.frame _ _ _ hs)

theorem carrierEvent (g) {f : State → State} (hf : ∀ s, P s → P (f s)) (s : State) (hs : P s) :
    P (carrierEvent g f s) := by
  unfold Machine.carrierEvent; dsimp only
  split
  · exact hf _ hs
  · exact h.sendMap _ _ (hf _ hs)

theorem goLive (g c p) (s : State) (hs : P s) : P (goLive g c p s) :=
  h.notice _ _ _ _ _ (h.carrier _ _ _ _ hs)

theorem startSettle (g c p) (s : State) (hs : P s) : P (startSettle g c p s) := by
  unfold Machine.startSettle; split
  · exact h.goLive _ _ _ _ hs
  · exact h.carrier _ _ _ _ hs

theorem putWaiting (g p) (s : State) (hs : P s) : P (putWaiting g p s) :=
  h.notice _ _ _ _ _ (h.gallery _ _ _ hs)

theorem preemptOrWait (g p) (s : State) (hs : P s) : P (preemptOrWait g p s) := by
  unfold Machine.preemptOrWait; split
  · exact h.putWaiting _ _ _ hs
  · split
    · exact h.putWaiting _ _ _ (h.startSettle _ _ _ _ hs)
    · exact h.putWaiting _ _ _ hs

theorem allocate (g p) (s : State) (hs : P s) : P (allocate g p s) := by
  unfold Machine.allocate; split
  · exact h.goLive _ _ _ _ hs
  · split
    · exact h.startSettle _ _ _ _ hs
    · split
      · exact h.startSettle _ _ _ _ hs
      · exact h.preemptOrWait _ _ _ hs

theorem demandArrival (p g) (s : State) (hs : P s) : P (demandArrival p g s) := by
  unfold Machine.demandArrival; split
  · exact hs
  · exact h.carrierEvent _ (h.allocate g p) _ hs

theorem handOver (g c w rest) (s : State) (hs : P s) : P (handOver g c w rest s) :=
  h.startSettle _ _ _ _ (h.notice _ _ _ _ _ (h.gallery _ _ _ hs))

theorem parkCarrier (g c p) (s : State) (hs : P s) : P (parkCarrier g c p s) := by
  unfold Machine.parkCarrier; split <;> exact h.carrier _ _ _ _ hs

theorem releaseCarrier (g c p) (s : State) (hs : P s) : P (releaseCarrier g c p s) := by
  unfold Machine.releaseCarrier; split
  · exact h.handOver _ _ _ _ _ hs
  · exact h.parkCarrier _ _ _ _ hs

theorem demandEnd (p g) (s : State) (hs : P s) : P (demandEnd p g s) := by
  unfold Machine.demandEnd; split
  · exact h.gallery _ _ _ hs
  · split
    · exact hs
    · exact h.carrierEvent _ (h.releaseCarrier g _ p) _ hs

theorem rerank (ps) (s : State) (hs : P s) : P (rerank ps s) :=
  forEach_keeps _ (fun _ _ ht => h.gallery _ _ _ ht) s hs

theorem carriersLost (g) (s : State) (hs : P s) : P (carriersLost g s) := h.gallery _ _ _ hs

theorem carriersGained (g) (s : State) (hs : P s) : P (carriersGained g s) := h.sendMap _ _ hs

theorem settleExpiry (g c) (s : State) (hs : P s) : P (settleExpiry g c s) := by
  unfold Machine.settleExpiry; dsimp only; split
  · split
    · exact h.carrierEvent _ (h.goLive g c _) _ hs
    · exact hs
  · exact hs

theorem parkExpiry (g c) (s : State) (hs : P s) : P (parkExpiry g c s) := by
  unfold Machine.parkExpiry; dsimp only; split
  · exact h.carrierEvent _ (fun s hs => h.carrier _ _ _ s hs) _ hs
  · exact hs

theorem mapRefreshExpiry (g) (s : State) (hs : P s) : P (mapRefreshExpiry g s) := by
  unfold Machine.mapRefreshExpiry; split
  · exact h.sendMap _ _ hs
  · exact hs

/-! ### Chapter 2: sources followed, wanted and ACTIVE -/

theorem setGuideFrozen (i b) (s : State) (hs : P s) : P (setGuideFrozen i b s) := by
  refine forEach_keeps _ (fun t s hs => ?_) s hs
  split
  · exact h.tour _ _ _ id hs
  · exact hs

theorem programsFollow (i flag) (s : State) (hs : P s) : P (programsFollow i flag s) := by
  unfold Machine.programsFollow; dsimp only
  refine forEach_keeps _ (fun p t ht => ?_) _ ?_
  · split
    · exact h.deriveVoice _ _ ht
    · exact ht
  · cases flag with
    | none => exact hs
    | some b => exact h.setGuideFrozen _ _ _ hs

theorem demandArrivals (p) (s : State) (hs : P s) : P (demandArrivals p s) :=
  forEach_keeps _ (fun g t ht => h.demandArrival p g t ht) s hs

theorem demandEnds (p) (s : State) (hs : P s) : P (demandEnds p s) :=
  forEach_keeps _ (fun g t ht => h.demandEnd p g t ht) s hs

theorem derive (p) (s : State) (hs : P s) : P (derive p s) := by
  unfold Machine.derive; dsimp only
  have h1 := h.settleState p _ (h.program s p
    (fun r => { r with wanted := isWanted s p }) hs)
  split
  · exact h.demandArrivals _ _ h1
  · split
    · exact h.demandEnds _ _ h1
    · exact h1

theorem rederive (ps) (s : State) (hs : P s) : P (rederive ps s) :=
  forEach_keeps _ (fun p t ht => h.derive p t ht) s hs

theorem changeCounts (p f) (s : State) (hs : P s) : P (changeCounts p f s) := by
  unfold Machine.changeCounts; dsimp only
  have h1 := h.rederive [p] _ (h.program s p f hs)
  split
  · exact h.rerank _ _ h1
  · exact h1

theorem countKeyed (p) (s : State) (hs : P s) : P (countKeyed p s) := h.changeCounts _ _ _ hs
theorem uncountKeyed (p) (s : State) (hs : P s) : P (uncountKeyed p s) := h.changeCounts _ _ _ hs
theorem countIssue (p) (s : State) (hs : P s) : P (countIssue p s) := h.changeCounts _ _ _ hs
theorem countReturn (p) (s : State) (hs : P s) : P (countReturn p s) := h.changeCounts _ _ _ hs

/-! ### Chapter 4: announcements -/

theorem putAnnouncement (n a) (s : State) (hs : P s) : P (putAnnouncement n a s) := by
  unfold Machine.putAnnouncement; dsimp only; split
  · exact h.chooseAllOverlays _ (h.announcement _ _ _ hs)
  · exact h.announcement _ _ _ hs

theorem createAnnouncement (n o) (s : State) (hs : P s) : P (createAnnouncement n o s) :=
  h.putAnnouncement _ _ _ hs

theorem renewAnnouncement (n o a) (s : State) (hs : P s) : P (renewAnnouncement n o a s) :=
  h.putAnnouncement _ _ _ hs

theorem withdrawAnnouncement (n a) (s : State) (hs : P s) : P (withdrawAnnouncement n a s) :=
  h.chooseAllOverlays _ (h.announcement _ _ _ hs)

theorem endAnnouncement (n) (s : State) (hs : P s) : P (endAnnouncement n s) := by
  unfold Machine.endAnnouncement; split
  · exact hs
  · exact h.announcement _ _ _ (ite_keeps (h.withdrawAnnouncement _ _ _ hs) hs)

theorem announcerLive (i) (s : State) (hs : P s) : P (announcerLive i s) := by
  refine forEach_keeps _ (fun n t ht => ?_) s hs
  split
  · exact ht
  · split
    · exact h.putAnnouncement _ _ _ ht
    · exact ht

theorem announcerLost (i) (s : State) (hs : P s) : P (announcerLost i s) := by
  refine forEach_keeps _ (fun n t ht => ?_) s hs
  split
  · exact ht
  · split
    · exact h.endAnnouncement _ _ ht
    · exact ht

theorem endExpiry (n) (s : State) (hs : P s) : P (endExpiry n s) := by
  unfold Machine.endExpiry; split
  · exact hs
  · split
    · exact h.endAnnouncement _ _ hs
    · exact hs

theorem pendingExpiry (n) (s : State) (hs : P s) : P (pendingExpiry n s) := by
  unfold Machine.pendingExpiry; split
  · exact hs
  · split
    · exact h.notice _ _ _ _ _ (h.announcement _ _ _ hs)
    · exact hs

/-! ### Chapter 5: hearing -/

theorem modHearing (i g f) (s : State) (hs : P s) : P (modHearing i g f s) :=
  h.hearing _ _ (by simp) hs

theorem dropHearing (i g) (s : State) (hs : P s) : P (dropHearing i g s) :=
  h.hearing _ _ (fun hl => le_trans (List.length_filter_le _ _) hl) hs

theorem guideMoved (t g c) (s : State) (hs : P s) : P (guideMoved t g c s) := h.notice _ _ _ _ _ hs

theorem joinGallery (t g) (s : State) (hp : hasPlace s t = true) (hs : P s) :
    P (joinGallery t g s) := by
  refine h.guideMoved _ _ _ _ (h.chooseTourOverlays _ _ (forEach_keeps _ (fun p t ht =>
    h.demandArrival p g t ht) _ (h.tour _ _ _ (fun _ => ?_) hs)))
  simp only [hasPlace, Config.gallerySetSize, Bool.and_eq_true] at hp
  have hl := of_decide_eq_true hp.1
  simp only [List.length_append, List.length_singleton]
  exact hl

theorem leaveGallery (t g c) (s : State) (hs : P s) : P (leaveGallery t g c s) := by
  refine h.guideMoved _ _ _ _ (h.chooseTourOverlays _ _ ?_)
  have h1 : P (s.modTour t fun r => { r with gallerySet := r.gallerySet.filter fun x => !(x == g) }) :=
    h.tour _ _ _ (fun hl => le_trans (List.length_filter_le _ _) hl) hs
  split
  · exact h1
  · exact forEach_keeps _ (fun p t ht => h.demandEnd p g t ht) _ h1

theorem offerOne (t) (s : State) (hs : P s) : P (offerOne t s) := by
  unfold Machine.offerOne; split
  · next hc =>
    split
    · exact hs
    · exact h.joinGallery _ _ _ hc.2 hs
  · exact hs

theorem offerPlace (t) (s : State) (hs : P s) : P (offerPlace t s) :=
  h.offerOne _ _ (h.offerOne _ _ (h.offerOne _ _ hs))

theorem joinOrWait (i g) (s : State) (hs : P s) : P (joinOrWait i g s) := by
  unfold Machine.joinOrWait; split
  · exact hs
  · split
    · next hc =>
      rw [Bool.and_eq_true] at hc
      exact h.joinGallery _ _ _ hc.1 hs
    · exact hs

theorem leaveIfMember (i g) (s : State) (hs : P s) : P (leaveIfMember i g s) := by
  unfold Machine.leaveIfMember; split
  · exact hs
  · split
    · exact h.offerPlace _ _ (h.leaveGallery _ _ _ _ hs)
    · exact hs

theorem becomeOut (i g) (s : State) (hs : P s) : P (becomeOut i g s) :=
  h.leaveIfMember _ _ _ (h.modHearing _ _ _ _ hs)

theorem evaluate (i g) (s : State) (hs : P s) : P (evaluate i g s) := by
  unfold Machine.evaluate; split
  · exact hs
  · split
    · exact hs
    · split
      · split
        · exact h.joinOrWait _ _ _ (h.modHearing _ _ _ _ hs)
        · exact hs
      · split
        · split
          · exact h.becomeOut _ _ _ hs
          · exact h.modHearing _ _ _ _ hs
        · exact hs
      · split
        · exact h.joinOrWait _ _ _ (h.modHearing _ _ _ _ hs)
        · exact hs

omit h in
theorem length_insertBefore {α : Type} (b : α → α → Bool) (x : α) (l : List α) :
    (insertBefore b x l).length = l.length + 1 := by
  induction l with
  | nil => rfl
  | cons y ys ih => unfold insertBefore; split <;> simp_all

theorem createHearing (i g o) (s : State) (hl : s.hearing.length < 96) (hs : P s) :
    P (createHearing i g o s) := by
  refine h.evaluate _ _ _ (h.hearing _ _ (fun _ => ?_) hs)
  rw [length_insertBefore]; omega

omit h in
theorem bestOf_mem {α : Type} (b : α → α → Bool) (l : List α) (x : α) (hx : bestOf b l = some x) :
    x ∈ l := by
  cases l with
  | nil => simp [bestOf] at hx
  | cons y ys =>
    simp only [bestOf, Option.some.injEq] at hx
    subst hx
    have key : ∀ (l : List α) (a : α),
        l.foldl (fun b' z => if b z b' then z else b') a ∈ a :: l := by
      intro l
      induction l with
      | nil => intro a; simp
      | cons z zs ih =>
        intro a
        simp only [List.foldl_cons]
        split
        · exact List.mem_cons_of_mem _ (ih z)
        · rcases List.mem_cons.mp (ih a) with e | e
          · rw [e]; exact List.mem_cons_self
          · exact List.mem_cons_of_mem _ (List.mem_cons_of_mem _ e)
    exact key ys y

omit h in
theorem length_dropHearing_lt (s : State) (e : HearingRecord) (he : evicted s = some e) :
    (Machine.dropHearing e.slot e.port s).hearing.length < s.hearing.length := by
  have hm := List.mem_of_mem_filter (bestOf_mem _ _ _ he)
  simp only [Machine.dropHearing]
  refine List.length_filter_lt_length_iff_exists.mpr ⟨e, hm, ?_⟩
  simp [isKey]

/-- A record created in the place of another one: the table keeps its length. -/
theorem createAfterDrop (i g o e) (s : State) (he : evicted s = some e) (hs : P s) :
    P (Machine.createHearing i g o (Machine.dropHearing e.slot e.port s)) := by
  have hlt := length_dropHearing_lt s e he
  refine h.evaluate _ _ _ (h.hearing s _ (fun hl => ?_) hs)
  rw [length_insertBefore]; omega

theorem observe (i g l) (s : State) (hs : P s) : P (observe i g l s) := by
  unfold Machine.observe; dsimp only; split
  · exact h.evaluate _ _ _ (h.modHearing _ _ _ _ hs)
  · split
    · next hc => exact h.createHearing _ _ _ _ hc hs
    · split
      · exact hs
      · next he => exact h.createAfterDrop _ _ _ _ _ he hs

theorem freezeGuide (i) (s : State) (hs : P s) : P (freezeGuide i s) := by
  have :=   h.hearing { s with guideFrozen := s.guideFrozen.set i true }
    (s.hearing.map fun r =>
      if r.slot = i then { r with frozen := true, silenceDeadline := none, leaveDeadline := none }
      else r) (by simp) (h.frozen _ _ hs)
  exact this

theorem thawRecord (i g) (s : State) (hs : P s) : P (thawRecord i g s) := by
  unfold Machine.thawRecord
  exact ite_keeps (h.becomeOut _ _ _ (h.modHearing _ _ _ _ hs)) (h.modHearing _ _ _ _ hs)

theorem thawGuide (i) (s : State) (hs : P s) : P (thawGuide i s) := by
  unfold Machine.thawGuide; dsimp only
  have h1 := forEach_keeps (portsHearing s i) (fun g t ht => h.thawRecord i g t ht) s hs
  have h2 := forEach_keeps (portsHearing (forEach (portsHearing s i) (Machine.thawRecord i) s) i)
    (fun g t ht => h.evaluate i g t ht) _ h1
  split
  · exact h.frozen _ _ h2
  · exact h.offerPlace _ _ (h.frozen _ _ h2)

theorem forgetGuide (i) (s : State) (hs : P s) : P (forgetGuide i s) :=
  h.frozen _ _ (h.hearing _ _ (fun hl => le_trans (List.length_filter_le _ _) hl) hs)

theorem hearingLost (g) (s : State) (hs : P s) : P (hearingLost g s) :=
  forEach_keeps _ (fun t u hu => h.offerPlace t u hu) _
    (forEach_keeps _ (fun t u hu => h.leaveGallery t g _ u hu) _
      (h.hearing _ _ (fun hl => le_trans (List.length_filter_le _ _) hl) hs))

theorem silenceExpiry (i g) (s : State) (hs : P s) : P (silenceExpiry i g s) := by
  unfold Machine.silenceExpiry; dsimp only; split
  · exact hs
  · split
    · split <;> split <;> first | exact h.dropHearing _ _ _ hs |
        exact h.evaluate _ _ _ (h.modHearing _ _ _ _ hs)
    · exact hs

theorem leaveExpiry (i g) (s : State) (hs : P s) : P (leaveExpiry i g s) := by
  unfold Machine.leaveExpiry; split
  · exact hs
  · split
    · exact h.becomeOut _ _ _ hs
    · exact hs

/-! ### Chapter 1: a change of state handed on -/

theorem handOnLive (i b) (s : State) (hs : P s) : P (handOnLive i b s) := by
  unfold Machine.handOnLive
  have h1 := h.announcerLive i _ (h.programsFollow i (if b then some false else none) s hs)
  exact ite_keeps (h.thawGuide _ _ h1) h1

theorem handOnLost (i) (s : State) (hs : P s) : P (handOnLost i s) := by
  unfold Machine.handOnLost
  have h1 := h.announcerLost i _ (h.programsFollow i (some true) s hs)
  exact ite_keeps (h.freezeGuide _ _ h1) h1

theorem handOnWritten (i) (s : State) (hs : P s) : P (handOnWritten i s) :=
  h.announcerLost i _ (h.programsFollow i none s hs)

end FollowKeeps

end Sys2Proof.Laws
end

