-- ==== Sys2Proof/Laws/Events.lean ====
section
/-! SUPPORT. Every event of the running hub but the configuration writes keeps what its primitive changes
keep (`Keeps` of Laws/Keeps.lean): the source unit, the racks and the fleet, ports, requests, RESTART. -/

namespace Sys2Proof.Laws.Keeps

open Sys2Proof.Machine

variable {P : State → Prop} (h : Keeps P)
include h

/-! ### Chapter 1: the source unit -/

omit h in
theorem length_dropWhile_le {α : Type} (q : α → Bool) (l : List α) :
    (l.dropWhile q).length ≤ l.length := (List.dropWhile_sublist q).length_le

omit h in
/-- A store that keeps its depth keeps it with one entry placed (R11). -/
theorem length_placeEntry (e : Entry) (l : List Entry) (hl : l.length ≤ 4) :
    (placeEntry e l).length ≤ 4 := by
  have hd := length_dropWhile_le (fun x : Entry => decide (127 < seqDistance e.seq x.seq)) l
  have hk : ∀ k : List Entry, k.length ≤ 4 →
      ((if Config.storeDepth ≤ k.length then k.drop 1 else k) ++ [e]).length ≤ 4 := by
    intro k h4
    by_cases hc : Config.storeDepth ≤ k.length
    · rw [if_pos hc, List.length_append, List.length_drop, List.length_singleton]
      simp only [Config.storeDepth] at hc; omega
    · rw [if_neg hc, List.length_append, List.length_singleton]
      simp only [Config.storeDepth] at hc; omega
  exact hk _ (le_trans hd hl)

theorem emptyStore (i) (s : State) (hs : P s) : P (emptyStore i s) :=
  forEach_keeps _ (fun p t ht => h.dropCursors i p t ht) _
    (h.source _ _ _ (fun _ => Nat.zero_le _) hs)

theorem sourceNotice (k i q) (s : State) (hs : P s) : P (sourceNotice k i q s) :=
  h.notice _ _ _ _ _ hs

theorem acceptFrame (i q b) (s : State) (hs : P s) : P (acceptFrame i q b s) := by
  unfold Machine.acceptFrame
  refine h.entryArrived _ _ _ ?_
  have h1 := h.source s i (fun r =>
    { r with
      store := placeEntry ⟨q, b, s.clock⟩ r.store
      newest := some q
      lostDeadline := some (s.after s.limits.sourceLostMs)
      state := .live }) (length_placeEntry _ _) hs
  have h2 := ite_keeps (c := s.sources[i].state = .lost) (h.sourceNotice .sourceBack i (some q) _ h1) h1
  exact ite_keeps h2 (h.handOnLive _ _ _ h2)

theorem loseSource (i) (s : State) (hs : P s) : P (loseSource i s) := by
  unfold Machine.loseSource
  have h1 := h.emptyStore i _ (h.source s i (fun r => { r with state := .lost }) id hs)
  exact h.handOnLost _ _ (h.sourceNotice _ _ _ _
    (h.source _ i (fun r => { r with lostDeadline := none }) id h1))

theorem lostExpiry (i) (s : State) (hs : P s) : P (lostExpiry i s) :=
  ite_keeps (h.loseSource _ _ hs) hs

theorem knownFrame (p i q l b) (s : State) (hs : P s) : P (knownFrame p i q l b s) := by
  unfold Machine.knownFrame; dsimp only
  have h1 : P (match classify s.sources[i] q with
    | .accepted => Machine.acceptFrame i q b s
    | .duplicate | .late => s) := by
    split
    · exact h.acceptFrame _ _ _ _ hs
    · exact hs
    · exact hs
  exact ite_keeps (h.observe _ _ _ _ h1) h1

theorem voiceArrival (p b) (s : State) (hs : P s) : P (voiceArrival p b s) := by
  unfold Machine.voiceArrival; split
  · exact hs
  · dsimp only; split
    · exact ite_keeps hs (h.unknown _ _ hs)
    · exact h.knownFrame _ _ _ _ _ _ hs

/-! ### Chapters 7 and 8: records, pool, key queue, charging -/

theorem noteReceiver (r f) (s : State) (hs : P s) : P (s.noteReceiver r f) := h.receiver _ _ _ hs

theorem changeReceiver (r f) (s : State) (hs : P s) : P (s.changeReceiver r f) := h.receiver _ _ _ hs

theorem slot (g k f) (s : State) (hs : P s) : P (s.modSlot g k f) := h.rack _ _ _ hs

theorem poolInsert (r) (s : State) (hs : P s) : P (poolInsert r s) := h.pool _ _ hs

theorem poolLeave (r) (s : State) (hs : P s) : P (poolLeave r s) := h.pool _ _ hs

theorem poolMove (r) (s : State) (hs : P s) : P (poolMove r s) :=
  ite_keeps (h.poolInsert _ _ (h.poolLeave _ _ hs)) hs

theorem sendOrder (g o n) (s : State) (hs : P s) : P (sendOrder g o n s) := by
  unfold Machine.sendOrder; exact h.rack _ _ _ (h.frame _ _ _ hs)

theorem sendHead (g) (s : State) (hs : P s) : P (sendHead g s) := by
  unfold Machine.sendHead; dsimp only; split
  · exact hs
  · exact ite_keeps (h.sendOrder _ _ _ _ hs) hs

theorem sendKeys (s : State) (hs : P s) : P (sendKeys s) :=
  forEach_keeps _ (fun g t ht => h.sendHead g t ht) s hs

theorem modOrder (n f) (s : State) (hs : P s) : P (modOrder n f s) := h.outfits _ _ (by simp) hs

theorem modOrderOf (n f) (s : State) (hs : P s) : P (modOrderOf n f s) := by
  cases n with
  | none => exact hs
  | some n => exact h.modOrder _ _ _ hs

theorem placeKeyFor (r p) (s : State) (hs : P s) : P (placeKeyFor r p s) := by
  unfold Machine.placeKeyFor; split
  · exact hs
  · exact h.rack _ _ _ hs

theorem selectHead (o) (s : State) (hs : P s) : P (selectHead o s) := by
  unfold Machine.selectHead; split
  · exact hs
  · exact h.modOrder _ _ _ (h.placeKeyFor _ _ _ (h.changeReceiver _ _ _ (h.pool _ _ hs)))

theorem fillOrder (o) (s : State) (hs : P s) : P (fillOrder o s) :=
  forEach_keeps _ (fun _ t ht => h.selectHead o t ht) s hs

theorem runSelection (s : State) (hs : P s) : P (runSelection s) :=
  forEach_keeps _ (fun o t ht => h.fillOrder o t ht) s hs

theorem enterPool (r) (s : State) (hs : P s) : P (enterPool r s) := by
  unfold Machine.enterPool; split
  · exact hs
  · exact ite_keeps (h.runSelection _ (h.poolInsert _ _ hs)) hs

theorem chargeLeave (g r) (s : State) (hs : P s) : P (chargeLeave g r s) := h.rack _ _ _ hs

theorem chargeSettle (g r) (s : State) (hs : P s) : P (chargeSettle g r s) := by
  unfold Machine.chargeSettle; dsimp only
  have h1 := h.chargeLeave g r s hs
  split
  · exact h1
  · exact ite_keeps (h.rack _ _ _ h1) h1

theorem chargeAll (g) (s : State) (hs : P s) : P (chargeAll g s) :=
  forEach_keeps _ (fun r t ht => h.chargeSettle g r t ht) s hs

theorem chargeSort (g) (s : State) (hs : P s) : P (chargeSort g s) := h.rack _ _ _ hs

theorem freeGrant (g r) (s : State) (hs : P s) : P (freeGrant g r s) :=
  h.noteReceiver _ _ _ (h.rack _ _ _ hs)

theorem chargeFrame (g r f) (s : State) (hs : P s) : P (chargeFrame g r f s) := by
  unfold Machine.chargeFrame; split
  · exact hs
  · exact h.frame _ _ _ hs

theorem issueOne (g) (s : State) (hs : P s) : P (issueOne g s) := by
  unfold Machine.issueOne; dsimp only; split
  · exact hs
  · exact ite_keeps (h.chargeFrame _ _ _ _ (h.noteReceiver _ _ _ (h.rack _ _ _ hs))) hs

theorem issueGrants (g) (s : State) (hs : P s) : P (issueGrants g s) :=
  forEach_keeps _ (fun _ t ht => h.issueOne g t ht) s hs

theorem revokeOne (g) (s : State) (hs : P s) : P (revokeOne g s) := by
  unfold Machine.revokeOne; dsimp only; split
  · exact hs
  · exact ite_keeps (h.chargeSettle _ _ _ (h.freeGrant _ _ _ (h.chargeFrame _ _ _ _ hs))) hs

theorem applyGrantLimit (g) (s : State) (hs : P s) : P (applyGrantLimit g s) :=
  h.issueGrants _ _ (forEach_keeps _ (fun _ t ht => h.revokeOne g t ht) _ hs)

/-! ### Chapter 7: outfits, undocking, faults -/

theorem createOrder (t l w) (s : State) (hl : s.outfits.length < 8) (hs : P s) :
    P (createOrder t l w s) := by
  unfold Machine.createOrder
  refine h.runSelection _ (h.nextOrder { s with outfits := s.outfits ++ [_] } _
    (h.outfits s _ (fun _ => ?_) hs))
  simp only [List.length_append, List.length_singleton]; omega

theorem completeOrder (n) (s : State) (hs : P s) : P (completeOrder n s) := by
  unfold Machine.completeOrder; split
  · exact hs
  · exact ite_keeps (h.notice _ _ _ _ _ (h.outfits _ _
      (fun hl => le_trans (List.length_filter_le _ _) hl) hs)) hs

theorem undockEffect (r d) (s : State) (hs : P s) : P (undockEffect r d s) := by
  unfold Machine.undockEffect; split
  · dsimp only; split
    · exact h.changeReceiver _ _ _ hs
    · exact h.countIssue _ _ (h.changeReceiver _ _ _ hs)
  · exact h.changeReceiver _ _ _ hs
  · exact h.changeReceiver _ _ _ hs
  · exact h.runSelection _ (h.modOrderOf _ _ _ (h.changeReceiver _ _ _ hs))
  · exact h.receiver _ _ _ hs
  all_goals exact hs

theorem emptySlot (g k) (s : State) (hs : P s) : P (emptySlot g k s) := h.slot _ _ _ _ hs

theorem undockReceiver (g k r) (s : State) (hs : P s) : P (undockReceiver g k r s) := by
  unfold Machine.undockReceiver; split
  · exact h.emptySlot _ _ _ hs
  · exact h.issueGrants _ _ (h.undockEffect _ _ _ (h.emptySlot _ _ _ (h.freeGrant _ _ _
      (h.chargeLeave _ _ _ (h.poolLeave _ _ (h.rack _ _ _ hs))))))

theorem undockSlot (g k) (s : State) (hs : P s) : P (undockSlot g k s) := by
  unfold Machine.undockSlot; split
  · exact hs
  · exact h.emptySlot _ _ _ hs
  · exact h.undockReceiver _ _ _ _ hs

theorem faultEffect (d) (s : State) (hs : P s) : P (faultEffect d s) := by
  unfold Machine.faultEffect; split
  · exact h.runSelection _ (h.modOrderOf _ _ _ hs)
  · exact h.uncountKeyed _ _ hs
  · exact hs

theorem faultReceiver (g k r) (s : State) (hs : P s) : P (faultReceiver g k r s) := by
  unfold Machine.faultReceiver; split
  · exact hs
  · refine ite_keeps hs ?_
    refine h.issueGrants _ _ (h.faultEffect _ _ (h.changeReceiver _ _ _ ?_))
    have h1 := h.chargeLeave g r _ (h.poolLeave r _ (h.rack s g
      (fun e => (e.dropOrders k).owe k false) hs))
    exact ite_keeps (h.freeGrant _ _ _ (h.frame _ _ _ h1)) h1

theorem keyFailedNotice (r d c k) (s : State) (hs : P s) : P (keyFailedNotice r d c k s) :=
  h.notice _ _ _ _ _ hs

theorem slotFaultReport (g k) (s : State) (hs : P s) : P (slotFaultReport g k s) := by
  unfold Machine.slotFaultReport; split
  · exact hs
  · exact hs
  · split
    · exact hs
    · exact ite_keeps (h.keyFailedNotice _ _ _ _ _ (h.faultReceiver _ _ _ _ hs))
        (h.faultReceiver _ _ _ _ hs)

theorem keySuccess (r d) (s : State) (hs : P s) : P (keySuccess r d s) := by
  unfold Machine.keySuccess; dsimp only
  have h1 := h.modOrderOf d.outfit OutfitOrder.keyedOne _ (h.changeReceiver r
    (fun d => { d with state := .keyed, outfit := none }) s hs)
  generalize Machine.modOrderOf d.outfit OutfitOrder.keyedOne (s.changeReceiver r
    fun d => { d with state := .keyed, outfit := none }) = u at h1 ⊢
  cases d.keyedProgram <;> cases d.outfit
  · exact h1
  · exact h.completeOrder _ _ h1
  · exact h.countKeyed _ _ h1
  · exact h.completeOrder _ _ (h.countKeyed _ _ h1)

theorem orderSucceeds (g o) (s : State) (hs : P s) : P (orderSucceeds g o s) := by
  unfold Machine.orderSucceeds; split
  · exact h.rack _ _ _ hs
  · split
    · exact hs
    · exact hs
    · split
      · exact hs
      · exact ite_keeps (h.keySuccess _ _ _ hs) hs

theorem orderFails (g o c) (s : State) (hs : P s) : P (orderFails g o c s) := by
  unfold Machine.orderFails; split
  · exact hs
  · exact hs
  · split
    · exact hs
    · exact h.keyFailedNotice _ _ _ _ _ (h.faultReceiver _ _ _ _ hs)

theorem orderOutcome (g k f) (s : State) (hs : P s) : P (orderOutcome g k f s) := by
  unfold Machine.orderOutcome; split
  · exact hs
  · refine ite_keeps ?_ hs
    cases f with
    | none => exact h.orderSucceeds _ _ _ (h.rack _ _ _ hs)
    | some c => exact h.orderFails _ _ _ _ (h.rack _ _ _ hs)

theorem keyReport (g k f) (s : State) (hs : P s) : P (keyReport g k f s) :=
  ite_keeps (h.rack _ _ _ hs) (h.orderOutcome _ _ _ _ hs)

theorem keyExpiry (g) (s : State) (hs : P s) : P (keyExpiry g s) := by
  unfold Machine.keyExpiry; dsimp only; split
  · exact hs
  · exact ite_keeps (ite_keeps (h.sendOrder _ _ _ _ hs) (h.orderOutcome _ _ _ _ hs)) hs

theorem batteryEffect (g r) (s : State) (hs : P s) : P (batteryEffect g r s) := by
  unfold Machine.batteryEffect; split
  · exact hs
  · refine ite_keeps hs (h.issueGrants _ _ (h.chargeSettle _ _ _ ?_))
    exact ite_keeps (h.enterPool _ _ (h.changeReceiver _ _ _ hs)) (h.poolMove _ _ hs)

theorem batteryUpdate (g r l) (s : State) (hs : P s) : P (batteryUpdate g r l s) :=
  h.batteryEffect _ _ _ (h.noteReceiver _ _ _ hs)

theorem batteryReport (g k l) (s : State) (hs : P s) : P (batteryReport g k l s) := by
  unfold Machine.batteryReport; split
  · exact hs
  · exact hs
  · exact h.batteryUpdate _ _ _ _ hs

theorem chargeFull (g r d) (s : State) (hs : P s) : P (chargeFull g r d s) := by
  unfold Machine.chargeFull; dsimp only
  have h1 := h.noteReceiver r (fun d => { d with battery := 100 }) s hs
  refine ite_keeps h1 (h.issueGrants _ _ ?_)
  have h2 := h.chargeLeave g r _ (h.freeGrant g r _ h1)
  exact ite_keeps (h.enterPool _ _ (h.changeReceiver _ _ _ h2)) (h.poolMove _ _ h2)

theorem chargeReport (g k) (s : State) (hs : P s) : P (chargeReport g k s) := by
  unfold Machine.chargeReport; split
  · exact hs
  · exact hs
  · split
    · exact hs
    · exact h.chargeFull _ _ _ _ hs

/-! ### Docking -/

theorem placeReceiver (g k r l) (s : State) (hs : P s) : P (placeReceiver g k r l s) := by
  unfold Machine.placeReceiver
  have h1 := h.issueGrants g _ (h.chargeSettle g r _ (h.changeReceiver r (fun d =>
    { d with state := byBattery s (min 100 l), place := some (g, k), dockStamp := some s.clock
             battery := min 100 l, charging := false, keyedProgram := none, outfit := none
             issueStamp := none, loanDeadline := none, unconfirmed := false }) _
    (h.slot g k (fun e => { e with occupant := .receiver r }) s hs)))
  exact ite_keeps (h.enterPool _ _ h1) h1

theorem dockKnown (g k r d l) (s : State) (hs : P s) : P (dockKnown g k r d l s) := by
  unfold Machine.dockKnown
  refine h.placeReceiver _ _ _ _ _ (ite_keeps (h.rack _ _ _ ?_) hs)
  split
  · exact hs
  · exact h.countReturn _ _ hs

theorem dockUnknown (g k i l) (s : State) (hs : P s) : P (dockUnknown g k i l s) := by
  unfold Machine.dockUnknown; dsimp only
  refine ite_keeps ?_ (h.slot _ _ _ _ hs)
  split
  · exact h.placeReceiver _ _ _ _ _ (h.receiver _ _ _ hs)
  · exact h.notice _ _ _ _ _ (h.slot _ _ _ _ hs)

theorem undockElsewhere (i) (s : State) (hs : P s) : P (undockElsewhere i s) := by
  unfold Machine.undockElsewhere; split
  · exact hs
  · split
    · exact hs
    · exact h.undockReceiver _ _ _ _ hs

theorem dockFound (g k i l) (s : State) (hs : P s) : P (dockFound g k i l s) := by
  unfold Machine.dockFound; split
  · exact h.dockUnknown _ _ _ _ _ hs
  · split
    · exact hs
    · exact h.dockKnown _ _ _ _ _ _ hs

theorem dockReport (g k i l) (s : State) (hs : P s) : P (dockReport g k i l s) := by
  unfold Machine.dockReport; split
  · exact h.batteryUpdate _ _ _ _ (h.noteReceiver _ _ _ hs)
  · exact h.dockFound _ _ _ _ _ (h.undockElsewhere _ _ (h.undockSlot _ _ _ hs))

/-! ### Orders cancelled, tours closed, racks offline and back -/

theorem cancelFlying (n r) (s : State) (hs : P s) : P (cancelFlying n r s) := by
  unfold Machine.cancelFlying; split
  · exact hs
  · exact ite_keeps (h.noteReceiver _ _ _ hs) hs

theorem dropWaitingKey (x) (s : State) (hs : P s) : P (dropWaitingKey x s) := by
  unfold Machine.dropWaitingKey; split
  · exact hs
  · exact h.rack _ _ _ hs

theorem cancelWaiting (n r) (s : State) (hs : P s) : P (cancelWaiting n r s) := by
  unfold Machine.cancelWaiting; split
  · exact hs
  · exact ite_keeps (h.enterPool _ _ (h.changeReceiver _ _ _ (h.dropWaitingKey _ _ hs))) hs

theorem cancelOrder (n) (s : State) (hs : P s) : P (cancelOrder n s) :=
  forEach_keeps _ (fun r t ht => h.cancelWaiting n r t ht) _
    (forEach_keeps _ (fun r t ht => h.cancelFlying n r t ht) _
      (h.outfits _ _ (fun hl => le_trans (List.length_filter_le _ _) hl) hs))

theorem closeKeyed (t r) (s : State) (hs : P s) : P (closeKeyed t r s) := by
  unfold Machine.closeKeyed; split
  · exact hs
  · split
    · refine ite_keeps ?_ hs
      have h1 := fun p (x : ReceiverData) => h.uncountKeyed p _ (h.changeReceiver r (fun d =>
        { d with state := byBattery s x.battery, keyedProgram := none }) s hs)
      split
      · exact ite_keeps (h.enterPool _ _ (h1 _ _)) (h1 _ _)
      · exact ite_keeps (h.enterPool _ _ (h.rack _ _ _ (h1 _ _))) (h.rack _ _ _ (h1 _ _))
    · exact hs

theorem closeIssued (t r) (s : State) (hs : P s) : P (closeIssued t r s) := by
  unfold Machine.closeIssued; split
  · exact hs
  · exact ite_keeps (h.changeReceiver _ _ _ hs) hs

theorem closeFleet (t) (s : State) (hs : P s) : P (closeFleet t s) :=
  forEach_keeps _ (fun r u hu => h.closeIssued t r u hu) _
    (forEach_keeps _ (fun r u hu => h.closeKeyed t r u hu) _
      (forEach_keeps _ (fun n u hu => h.cancelOrder n u hu) _ hs))

theorem loanExpiry (r) (s : State) (hs : P s) : P (loanExpiry r s) := by
  unfold Machine.loanExpiry; split
  · exact hs
  · exact ite_keeps (h.notice _ _ _ _ _ (h.changeReceiver _ _ _ hs)) hs

theorem returnKeying (r) (s : State) (hs : P s) : P (returnKeying r s) := by
  unfold Machine.returnKeying; split
  · exact hs
  · refine ite_keeps ?_ hs
    have h1 := h.changeReceiver r (fun d =>
      { d with state := .dockedReady, keyedProgram := none, outfit := none }) s hs
    split
    · exact h1
    · exact h.rack _ _ _ h1

theorem loseKeying (r) (s : State) (hs : P s) : P (loseKeying r s) := by
  unfold Machine.loseKeying; split
  · exact hs
  · exact ite_keeps (h.modOrderOf _ _ _ (h.returnKeying _ _ hs)) hs

theorem rackOffline (g) (s : State) (hs : P s) : P (rackOffline g s) := by
  unfold Machine.rackOffline
  exact h.notice _ _ _ _ _ (h.runSelection _ (forEach_keeps _ (fun r t ht => h.loseKeying r t ht) _
    (forEach_keeps _ (fun r t ht => h.noteReceiver _ _ _ (h.poolLeave r t ht)) _ (h.rack _ _ _ hs))))

theorem sendInventory (g) (s : State) (hs : P s) : P (sendInventory g s) := by
  unfold Machine.sendInventory; exact h.rack _ _ _ (h.frame _ _ _ hs)

theorem startInventory (g) (s : State) (hs : P s) : P (startInventory g s) :=
  h.sendInventory _ _ (h.rack _ _ _ (forEach_keeps _ (fun r t ht => h.noteReceiver r _ t ht) _ hs))

theorem inventoryExpiry (g) (s : State) (hs : P s) : P (inventoryExpiry g s) :=
  ite_keeps (h.sendInventory _ _ hs) hs

theorem reconcile (g k) (s : State) (hs : P s) : P (reconcile g k s) := by
  unfold Machine.reconcile; split
  · exact hs
  · exact hs
  · exact ite_keeps (h.undockReceiver _ _ _ _ hs) hs

theorem placeOwed (g k) (s : State) (hs : P s) : P (placeOwed g k s) := by
  unfold Machine.placeOwed; split
  · exact hs
  · exact hs
  · split
    · exact hs
    · exact ite_keeps (h.rack _ _ _ hs) hs

theorem enterIfReady (r) (s : State) (hs : P s) : P (enterIfReady r s) :=
  ite_keeps (h.enterPool _ _ hs) hs

theorem inventoryDone (g) (s : State) (hs : P s) : P (inventoryDone g s) :=
  ite_keeps (forEach_keeps _ (fun r t ht => h.enterIfReady r t ht) _
    (h.issueGrants _ _ (h.chargeAll _ _ (h.rack _ _ _
      (forEach_keeps _ (fun k t ht => h.placeOwed g k t ht) _
        (forEach_keeps _ (fun k t ht => h.reconcile g k t ht) _ hs)))))) hs

/-! ### Chapters 9 and 10: ports, requests, notices -/

theorem purgeRequests (p) (s : State) (hs : P s) : P (purgeRequests p s) :=
  h.requests _ _ (fun hl => le_trans (List.length_filter_le _ _) hl) hs

theorem leaveRole (p r) (s : State) (hs : P s) : P (leaveRole p r s) := by
  cases r with
  | unused => exact hs
  | gallery => exact h.carriersLost _ _ (h.hearingLost _ _ hs)
  | rack => exact h.rackOffline _ _ hs
  | desk => exact h.purgeRequests _ _ hs

theorem takeRole (p r) (s : State) (hs : P s) : P (takeRole p r s) := by
  cases r with
  | unused => exact hs
  | gallery => exact h.carriersGained _ _ hs
  | rack => exact h.startInventory _ _ hs
  | desk => exact hs

theorem linkUp (p) (s : State) (hs : P s) : P (linkUp p s) := h.takeRole _ _ _ (h.link _ _ _ hs)

theorem linkDown (p) (s : State) (hs : P s) : P (linkDown p s) := by
  unfold Machine.linkDown
  have h1 := h.leaveRole p s.ports[p].role _ (h.link s p .down hs)
  exact ite_keeps h1 (h.notice _ _ _ _ _ h1)

theorem respond (p f) (s : State) (hs : P s) : P (respond p f s) :=
  ite_keeps (h.frame _ _ _ hs) (h.drop _ _ _ hs)

theorem requestArrival (p b) (s : State) (hs : P s) : P (requestArrival p b s) := by
  unfold Machine.requestArrival; split
  · next hl =>
    refine h.requests _ _ (fun _ => ?_) hs
    simp only [List.length_append, List.length_singleton]; exact hl
  · exact h.respond _ _ _ hs

theorem sendNotice (s : State) (hs : P s) : P (sendNotice s) := by
  unfold Machine.sendNotice; split
  · exact hs
  · next n rest e =>
    refine ite_keeps (h.frame _ _ _ (h.notices s rest (fun hl => ?_) hs)) hs
    rw [e, List.length_cons] at hl; omega

theorem saveFailed (a b c) (s : State) (hs : P s) : P (saveFailed a b c s) :=
  h.notice _ _ _ _ _ (h.saved _ hs)

/-! ### Requests served -/

/-- A request served keeps what it keeps when its effects, and what follows its response, do. -/
theorem serveHead (isRow serve) (s t : State)
    (hserve : ∀ p b s, P s → P (serve p b s).state ∧ ∀ u, P u → P ((serve p b s).after u))
    (hs : P s) (ht : Machine.serveHead isRow serve s = .next t) : P t := by
  unfold Machine.serveHead State.running at ht
  injection ht with ht; subst ht
  refine ite_keeps ?_ hs
  dsimp only
  cases e : s.requests with
  | nil => exact hs
  | cons r rest =>
    refine ite_keeps ?_ hs
    have hr := h.requests s rest (fun hl => by rw [e, List.length_cons] at hl; omega) hs
    have hx := hserve r.port r.payload _ hr
    exact hx.2 _ (h.respond _ _ _ hx.1)

theorem openTour (t i q) (s : State) (hs : P s) : P (openTour t i q s) :=
  h.offerPlace _ _ (h.rederive _ _ (h.tour _ _ _ (fun _ => Nat.zero_le _) hs))

theorem closeDemand (t) (s : State) (hs : P s) : P (closeDemand t s) := by
  refine forEach_keeps _ (fun g u hu => ?_) s hs
  exact forEach_keeps _ (fun p v hv => h.demandEnd p g v hv) u hu

theorem closeTour (t) (s : State) (hs : P s) : P (closeTour t s) :=
  h.rederive _ _ (h.closeFleet _ _ (h.chooseTourOverlays _ _
    (h.tour _ _ _ (fun _ => Nat.zero_le _) (h.closeDemand _ _ hs))))

theorem startAnnouncement (o) (s : State) (hs : P s) : P (startAnnouncement o s).2 := by
  unfold Machine.startAnnouncement; dsimp only; split
  · exact hs
  · split
    · exact h.renewAnnouncement _ _ _ _ hs
    · split
      · exact h.createAnnouncement _ _ _ hs
      · exact hs

theorem stopAnnouncement (o) (s : State) (hs : P s) : P (stopAnnouncement o s).2 := by
  unfold Machine.stopAnnouncement; split
  · exact h.endAnnouncement _ _ hs
  · exact hs

/-! ### RESTART -/

theorem restartSources (s : State) (hs : P s) : P (restartSources s) := by
  unfold Machine.restartSources
  have h1 : P (forEach (fins 64) (fun i s => s.modSource i Source.restarted) s) :=
    forEach_keeps _ (fun i t ht => h.source t i Source.restarted (fun _ => Nat.zero_le _) ht) s hs
  generalize forEach (fins 64) (fun i s => s.modSource i Source.restarted) s = u at h1 ⊢
  exact h.frozen { u with hearing := [] } _ (h.hearing u [] (fun _ => Nat.zero_le _) h1)

theorem restartGalleries (s : State) (hs : P s) : P (restartGalleries s) := by
  unfold Machine.restartGalleries
  have h1 : P (forEach (fins 24)
      (fun t s => s.modTour t fun r => { r with gallerySet := [], guideFrozen := false }) s) :=
    forEach_keeps _ (fun t u hu => h.tour u t
      (fun r => { r with gallerySet := [], guideFrozen := false }) (fun _ => Nat.zero_le 3) hu) _ hs
  generalize forEach (fins 24)
      (fun t s => s.modTour t fun r => { r with gallerySet := [], guideFrozen := false }) s = u at h1 ⊢
  refine forEach_keeps _ (fun g t ht => ?_) _ (forEach_keeps _ (h.carriersLost) _
    (forEach_keeps _ (fun n t ht => h.announcement t n none ht) _ h1))
  exact ite_keeps (h.carriersGained g t ht) ht

theorem restartPrograms (s : State) (hs : P s) : P (restartPrograms s) := by
  unfold Machine.restartPrograms
  refine forEach_keeps _ h.derive _ (forEach_keeps _ (fun p t ht => ?_) _
    (forEach_keeps _ (fun p t ht => ?_) _ hs))
  · exact h.clearClip p _ (h.program t p _ ht)
  · exact ite_keeps (h.leaveActive p t ht) ht

theorem noPoolNoOrders (s : State) (hs : P s) : P { s with pool := [], outfits := [] } := by
  have h1 := h.pool s [] hs
  generalize hv : { s with pool := [] } = v at h1
  have h2 := h.outfits v [] (fun _ => Nat.zero_le _) h1
  subst hv
  exact h2

theorem restartFleet (s : State) (hs : P s) : P (restartFleet s) := by
  unfold Machine.restartFleet
  refine forEach_keeps _ (fun g t ht => h.rack t g Rack.dark ht) _ (h.noPoolNoOrders _ ?_)
  exact forEach_keeps _ (fun r t ht => h.noteReceiver r _ t ht) _
    (forEach_keeps _ h.returnKeying _ hs)

theorem restartInventories (s : State) (hs : P s) : P (restartInventories s) := by
  unfold Machine.restartInventories
  refine forEach_keeps _ (fun g t ht => ?_) s hs
  exact ite_keeps (h.startInventory g t ht) ht

theorem restartQueues (s : State) (hs : P s) : P (restartQueues s) := by
  unfold Machine.restartQueues
  have h1 := h.requests s [] (fun _ => Nat.zero_le _) hs
  generalize hu : { s with requests := [] } = u at h1
  have h2 := h.notices u [] (fun _ => Nat.zero_le _) h1
  generalize hv : { u with notices := [] } = v at h2
  have h3 := h.log _ DeliveryLog.cleared (h.overflow v false h2)
  subst hv hu
  exact h3

theorem restartHub (s : State) (hs : P s) : P (restartHub s) := by
  unfold Machine.restartHub
  exact h.notice _ _ _ _ _ (h.restartInventories _ (h.restartFleet _ (h.restartPrograms _
    (h.restartGalleries _ (h.restartSources _ (h.restartQueues _ hs))))))

/-! ### Each request's serving -/

omit h in
theorem refuse_keeps (st) (u : State) (hu : P u) :
    P (refuse st u).state ∧ ∀ v, P v → P ((refuse st u).after v) := ⟨hu, fun _ hv => hv⟩

omit h in
theorem done_keeps (r) (u : State) (hu : P u) :
    P (done r u).state ∧ ∀ v, P v → P ((done r u).after v) := ⟨hu, fun _ hv => hv⟩

theorem serveRead (p b) (u : State) (hu : P u) :
    P (serveRead p b u).state ∧ ∀ v, P v → P ((serveRead p b u).after v) := by
  unfold Machine.serveRead; split
  · exact refuse_keeps _ _ hu
  · unfold Machine.readEntry; split
    · exact refuse_keeps _ _ hu
    · split
      · exact refuse_keeps _ _ hu
      · split
        · exact refuse_keeps _ _ hu
        · split
          · refine ⟨?_, fun v hv => hv⟩
            cases toFin 96 _ with
            | none => exact hu
            | some p => exact h.clearClip p u hu
          · exact done_keeps _ _ hu

theorem serveOpen (p b) (u : State) (hu : P u) :
    P (serveOpen p b u).state ∧ ∀ v, P v → P ((serveOpen p b u).after v) := by
  unfold Machine.serveOpen; dsimp only; split
  · exact refuse_keeps _ _ hu
  · split
    · exact refuse_keeps _ _ hu
    · split
      · exact refuse_keeps _ _ hu
      · exact done_keeps _ _ (h.openTour _ _ _ _ hu)
    · exact refuse_keeps _ _ hu

theorem serveClose (p b) (u : State) (hu : P u) :
    P (serveClose p b u).state ∧ ∀ v, P v → P ((serveClose p b u).after v) := by
  unfold Machine.serveClose; split
  · exact refuse_keeps _ _ hu
  · split
    · exact refuse_keeps _ _ hu
    · split
      · exact refuse_keeps _ _ hu
      · exact done_keeps _ _ (h.sendKeys _ (h.closeTour _ _ hu))

theorem serveOutfit (p b) (u : State) (hu : P u) :
    P (serveOutfit p b u).state ∧ ∀ v, P v → P ((serveOutfit p b u).after v) := by
  unfold Machine.serveOutfit; dsimp only; split
  · exact refuse_keeps _ _ hu
  · split
    · split
      · exact refuse_keeps _ _ hu
      · split
        · exact refuse_keeps _ _ hu
        · next hl => exact done_keeps _ _ (h.sendKeys _ (h.createOrder _ _ _ _ (not_le.mp hl) hu))
    · exact refuse_keeps _ _ hu

theorem serveCancel (p b) (u : State) (hu : P u) :
    P (serveCancel p b u).state ∧ ∀ v, P v → P ((serveCancel p b u).after v) := by
  unfold Machine.serveCancel; dsimp only; split
  · exact refuse_keeps _ _ hu
  · split
    · exact refuse_keeps _ _ hu
    · exact done_keeps _ _ (h.sendKeys _ (h.cancelOrder _ _ hu))

theorem serveClear (p b) (u : State) (hu : P u) :
    P (serveClear p b u).state ∧ ∀ v, P v → P ((serveClear p b u).after v) := by
  unfold Machine.serveClear; split
  · exact refuse_keeps _ _ hu
  · split
    · exact refuse_keeps _ _ hu
    · exact done_keeps _ _ (h.clearClip _ _ hu)

theorem serveStatus (p b) (u : State) (hu : P u) :
    P (serveStatus p b u).state ∧ ∀ v, P v → P ((serveStatus p b u).after v) := by
  unfold Machine.serveStatus; split
  · exact refuse_keeps _ _ hu
  · exact done_keeps _ _ (h.overflow _ _ hu)

theorem serveRelease (p b) (u : State) (hu : P u) :
    P (serveRelease p b u).state ∧ ∀ v, P v → P ((serveRelease p b u).after v) := by
  unfold Machine.serveRelease; split
  · exact refuse_keeps _ _ hu
  · exact done_keeps _ _ (h.log _ _ hu)

theorem serveSave (p b) (u : State) (hu : P u) :
    P (serveSave p b u).state ∧ ∀ v, P v → P ((serveSave p b u).after v) := by
  unfold Machine.serveSave; split
  · exact refuse_keeps _ _ hu
  · split
    · exact refuse_keeps _ _ hu
    · exact done_keeps _ _ (h.snapshot _ hu)

theorem serveRestart (p b) (u : State) (hu : P u) :
    P (serveRestart p b u).state ∧ ∀ v, P v → P ((serveRestart p b u).after v) := by
  unfold Machine.serveRestart; split
  · exact refuse_keeps _ _ hu
  · exact ⟨hu, h.restartHub⟩

omit h in
theorem serveAnnounce (act) (hact : ∀ o u, P u → P (act o u).2) (b) (u : State) (hu : P u) :
    P (serveAnnounce act b u).state ∧ ∀ v, P v → P ((serveAnnounce act b u).after v) := by
  unfold Machine.serveAnnounce; dsimp only; split
  · exact ⟨hu, fun v hv => hv⟩
  · split
    · exact ⟨hu, fun v hv => hv⟩
    · exact ⟨hact _ _ hu, fun _ hv => hv⟩

/-! ### Every command of the running hub but the configuration's -/

omit h in
/-- What the event of a running hub answers satisfies what the event's effect keeps. -/
theorem running_keeps {f : State → State} (hf : ∀ s, P s → P (f s)) (s t : State) (hs : P s)
    (ht : s.running f = .next t) : P t := by
  unfold State.running at ht
  injection ht with ht; subst ht
  exact ite_keeps (hf s hs) hs

theorem rackReport (p b n) (f : List Byte → State → State) (hf : ∀ x s, P s → P (f x s)) (s t : State)
    (hs : P s) (ht : Machine.rackReport p b n f s = .next t) : P t := by
  unfold Machine.rackReport at ht
  refine running_keeps (fun u hu => ?_) s t hs ht
  split
  · exact hu
  · exact ite_keeps (h.sendKeys _ (hf _ _ hu)) hu

omit h in
theorem withSlot (f : RackSlot → State → State) (hf : ∀ k s, P s → P (f k s)) (b) (s : State)
    (hs : P s) : P (withSlot f b s) := by
  unfold Machine.withSlot; split
  · exact hs
  · exact hf _ _ hs

/-- The commands that write the configuration, load or save the image, or switch the power. -/
def configures : Instr → Bool
  | .powerOn | .configLoadComplete | .configSaveComplete _ | .ackTimeout _ _ | .powerLoss _ _
  | .writeEntry | .condWrite => true
  | _ => false

/-- Every other command keeps what the primitive changes keep. -/
theorem exec (c : Instr) (hc : configures c = false) (s t : State) (hs : P s)
    (ht : exec c s = .next t) : P t := by
  cases c
  case linkUp p => exact running_keeps (fun u hu => ite_keeps (h.linkUp p u hu) hu) s t hs ht
  case linkDown p =>
    exact running_keeps (fun u hu => ite_keeps (ite_keeps (h.sendKeys _ (h.linkDown p u hu))
      (h.linkDown p u hu)) hu) s t hs ht
  case voiceFrame p b =>
    change execVoiceFrame p b s = _ at ht
    unfold execVoiceFrame at ht
    refine running_keeps (fun u hu => ?_) s t hs ht
    split
    · exact hu
    · exact h.voiceArrival _ _ _ hu
  case lostDeadlineExpiry i => exact running_keeps (h.lostExpiry i) s t hs ht
  case blockDeadlineExpiry p => exact running_keeps (h.blockExpiry p) s t hs ht
  case silenceDeadlineExpiry i g => exact running_keeps (h.silenceExpiry i g) s t hs ht
  case leaveDeadlineExpiry i g => exact running_keeps (h.leaveExpiry i g) s t hs ht
  case settleDeadlineExpiry g c => exact running_keeps (h.settleExpiry g c) s t hs ht
  case parkDeadlineExpiry g c => exact running_keeps (h.parkExpiry g c) s t hs ht
  case mapRefreshDeadlineExpiry g => exact running_keeps (h.mapRefreshExpiry g) s t hs ht
  case endDeadlineExpiry n => exact running_keeps (h.endExpiry n) s t hs ht
  case pendingDeadlineExpiry n => exact running_keeps (h.pendingExpiry n) s t hs ht
  case loanDeadlineExpiry r => exact running_keeps (h.loanExpiry r) s t hs ht
  case keyDeadlineExpiry g =>
    exact running_keeps (fun u hu => h.sendKeys _ (h.keyExpiry g u hu)) s t hs ht
  case inventoryDeadlineExpiry g => exact running_keeps (h.inventoryExpiry g) s t hs ht
  case dock p b =>
    exact h.rackReport p b 1 _ (fun x u hu => withSlot _ (fun k v hv => h.dockReport p k _ _ v hv) x u hu)
      s t hs ht
  case undock p b =>
    exact h.rackReport p b 2 _ (fun x u hu => withSlot _ (h.undockSlot p) x u hu) s t hs ht
  case battery p b =>
    exact h.rackReport p b 3 _ (fun x u hu => withSlot _ (fun k v hv => h.batteryReport p k _ v hv) x u hu)
      s t hs ht
  case chargeDone p b =>
    exact h.rackReport p b 4 _ (fun x u hu => withSlot _ (h.chargeReport p) x u hu) s t hs ht
  case keyDone p b =>
    exact h.rackReport p b 5 _ (fun x u hu => withSlot _ (fun k v hv => h.keyReport p k _ v hv) x u hu)
      s t hs ht
  case keyFail p b =>
    exact h.rackReport p b 6 _ (fun x u hu => withSlot _ (fun k v hv => h.keyReport p k _ v hv) x u hu)
      s t hs ht
  case slotFault p b =>
    exact h.rackReport p b 7 _ (fun x u hu => withSlot _ (h.slotFaultReport p) x u hu) s t hs ht
  case inventoryEnd p b => exact h.rackReport p b 8 _ (fun _ => h.inventoryDone p) s t hs ht
  case controlRequest p b =>
    change execControlRequest p b s = _ at ht
    unfold execControlRequest at ht
    refine running_keeps (fun u hu => ?_) s t hs ht
    split
    · exact hu
    · exact h.requestArrival _ _ _ hu
  case frameSent p =>
    change execFrameSent p s = _ at ht
    unfold execFrameSent at ht
    refine running_keeps (fun u hu => ?_) s t hs ht
    split
    · exact hu
    · exact h.sent _ _ hu
  case noticeSend => exact running_keeps h.sendNotice s t hs ht
  case readEntry => exact h.serveHead _ _ s t h.serveRead hs ht
  case openTour => exact h.serveHead _ _ s t h.serveOpen hs ht
  case closeTour => exact h.serveHead _ _ s t h.serveClose hs ht
  case outfit => exact h.serveHead _ _ s t h.serveOutfit hs ht
  case cancelOutfit => exact h.serveHead _ _ s t h.serveCancel hs ht
  case announceStart =>
    change execAnnounceStart s = _ at ht
    unfold execAnnounceStart at ht
    exact h.serveHead _ _ s t (fun _ => serveAnnounce _ h.startAnnouncement) hs ht
  case announceStop =>
    change execAnnounceStop s = _ at ht
    unfold execAnnounceStop at ht
    exact h.serveHead _ _ s t (fun _ => serveAnnounce _ h.stopAnnouncement) hs ht
  case announceQuery =>
    change execAnnounceQuery s = _ at ht
    unfold execAnnounceQuery at ht
    exact h.serveHead _ _ s t (fun _ => serveAnnounce (fun _ s => (.ok, s)) fun _ _ hu => hu) hs ht
  case clearFlags => exact h.serveHead _ _ s t h.serveClear hs ht
  case readStatus => exact h.serveHead _ _ s t h.serveStatus hs ht
  case releaseLog => exact h.serveHead _ _ s t h.serveRelease hs ht
  case saveConfig => exact h.serveHead _ _ s t h.serveSave hs ht
  case restart => exact h.serveHead _ _ s t h.serveRestart hs ht
  case unknownRequestKind =>
    change execUnknownRequestKind s = _ at ht
    unfold execUnknownRequestKind at ht
    exact h.serveHead _ _ s t (fun _ _ u hu => refuse_keeps _ u hu) hs ht
  all_goals cases hc

end Sys2Proof.Laws.Keeps
end

