-- ==== Sys2Proof/Laws/Image.lean ====
section
/-! SUPPORT. Lengths of fields, sections and images, and which numbers `fins` lists. -/

namespace Sys2Proof.Machine

theorem mem_fins {n : Nat} (i : Fin n) : i ∈ fins n := by
  simp only [fins, List.mem_filterMap, List.mem_range]
  exact ⟨i.val, i.isLt, by simp⟩

theorem fins_eq_finRange (n : Nat) : fins n = List.finRange n := by
  apply List.ext_getElem?
  intro i
  simp only [fins]
  have key : ∀ k, k ≤ n → ((List.range k).filterMap fun i => if h : i < n then some (⟨i, h⟩ : Fin n) else none)
      = (List.finRange n).take k := by
    intro k
    induction k with
    | zero => simp
    | succ k ih =>
      intro hk
      rw [List.range_succ, List.filterMap_append, ih (by omega)]
      rw [List.take_add_one]
      simp [show k < n by omega]
  rw [key n le_rfl, List.take_of_length_le (by simp)]

@[simp] theorem length_fins (n : Nat) : (fins n).length = n := by simp [fins_eq_finRange]

@[simp] theorem length_put8 (n : Nat) : (put8 n).length = 1 := rfl
@[simp] theorem length_put16 (n : Nat) : (put16 n).length = 2 := rfl
@[simp] theorem length_put24 (n : Nat) : (put24 n).length = 3 := rfl
@[simp] theorem length_put32 (n : Nat) : (put32 n).length = 4 := rfl
@[simp] theorem length_opt8 (x : Option Nat) : (opt8 x).length = 1 := rfl
@[simp] theorem length_opt16 (x : Option Nat) : (opt16 x).length = 2 := rfl
@[simp] theorem length_opt32 (x : Option Nat) : (opt32 x).length = 4 := rfl

/-- Runs of one length, one for each number of a table. -/
theorem length_flatten_fins {n k : Nat} {f : Fin n → List Byte} (h : ∀ i, (f i).length = k) :
    ((fins n).map f).flatten.length = n * k := by
  rw [List.length_flatten, List.map_map]
  have : (List.length ∘ f) = fun _ => k := funext h
  rw [this]
  simp

theorem length_imageSections (s : State) : (imageSections s).length = 428 := by
  simp only [imageSections, sectionOpening, portContent, gainContent, limitsContent, zoneContent,
    sourceContent, List.length_append, length_put8, length_put16, length_put32]
  rw [length_flatten_fins (k := 2) (fun _ => rfl), length_flatten_fins (k := 2) (fun _ => rfl),
    length_flatten_fins (k := 2) (fun _ => rfl), length_flatten_fins (k := 5) (fun _ => rfl)]

/-- An image has 436 bytes (R180). -/
theorem length_imageOf (s : State) : (imageOf s).length = imageLength := by
  simp only [imageOf, List.length_append, length_put32, length_put16, length_imageSections, imageLength]

end Sys2Proof.Machine
end

