-- ==== Sys2Proof/Laws/Memory.lean ====
section
/-! SUPPORT. The configuration memory: a read after a write, every other address left alone, and the
canonical form kept by every write; and when a memory that holds the bytes of an image is a valid one. -/

namespace Sys2Proof.Machine

/-- Every cell lies above an address. -/
def Memory.above (a : Nat) (m : List Host.Cell) : Prop := ∀ c ∈ m, a < c.1

theorem Memory.wf_cons_iff (x : Nat) (v : Byte) (m : List Host.Cell) :
    Memory.wf ((x, v) :: m) = true ↔
      x < Config.memoryBytes ∧ v ≠ Config.unwrittenByte ∧ Memory.above x m ∧ Memory.wf m = true := by
  simp [Memory.wf, Memory.above, and_assoc]

theorem Memory.above_cons {a x : Nat} {v : Byte} {m : List Host.Cell} (h : a < x)
    (hm : Memory.above a m) : Memory.above a ((x, v) :: m) := by
  intro c hc
  rcases List.mem_cons.mp hc with e | e
  · rw [e]; exact h
  · exact hm c e

theorem Memory.above_mono {a b : Nat} {m : List Host.Cell} (h : a ≤ b) (hm : Memory.above b m) :
    Memory.above a m := fun c hc => lt_of_le_of_lt h (hm c hc)

theorem Memory.above_putCell {a b : Nat} {v : Byte} {m : List Host.Cell} (h : a < b)
    (hm : Memory.above a m) : Memory.above a (Memory.cons b v m) := by
  unfold Memory.cons; split
  · exact hm
  · exact Memory.above_cons h hm

theorem Memory.above_write {a b : Nat} {v : Byte} (m : List Host.Cell) (h : a < b)
    (hm : Memory.above a m) : Memory.above a (Memory.write m b v) := by
  induction m with
  | nil => exact Memory.above_putCell h hm
  | cons c m ih =>
    obtain ⟨x, w⟩ := c
    have hx : a < x := hm (x, w) List.mem_cons_self
    have hr : Memory.above a m := fun d hd => hm d (List.mem_cons_of_mem _ hd)
    unfold Memory.write; split
    · exact Memory.above_putCell h hm
    · split
      · exact Memory.above_putCell h hr
      · exact Memory.above_cons hx (ih hr)

theorem Memory.putCell_wf {a : Nat} {b : Byte} {m : List Host.Cell} (ha : a < Config.memoryBytes)
    (hm : Memory.above a m) (hw : Memory.wf m = true) : Memory.wf (Memory.cons a b m) = true := by
  unfold Memory.cons; split
  · exact hw
  · next hb => exact (Memory.wf_cons_iff a b m).mpr ⟨ha, hb, hm, hw⟩

/-- A write inside the memory keeps the canonical form. -/
theorem Memory.write_wf {a : Nat} {b : Byte} (m : List Host.Cell) (ha : a < Config.memoryBytes)
    (hw : Memory.wf m = true) : Memory.wf (Memory.write m a b) = true := by
  induction m with
  | nil => exact Memory.putCell_wf ha (by simp [Memory.above]) hw
  | cons c m ih =>
    obtain ⟨x, v⟩ := c
    obtain ⟨hx, hv, hab, hwm⟩ := (Memory.wf_cons_iff x v m).mp hw
    unfold Memory.write; split
    · next h => exact Memory.putCell_wf ha (Memory.above_cons h (Memory.above_mono (le_of_lt h) hab)) hw
    · split
      · next h => subst h; exact Memory.putCell_wf ha hab hwm
      · next h1 h2 =>
        exact (Memory.wf_cons_iff _ _ _).mpr
          ⟨hx, hv, Memory.above_write m (by omega) hab, ih hwm⟩

/-- Bytes written inside the memory keep the canonical form. -/
theorem Memory.writeAll_wf (bs : List Byte) (m : List Host.Cell) (a : Nat)
    (ha : a + bs.length ≤ Config.memoryBytes) (hw : Memory.wf m = true) :
    Memory.wf (Memory.writeAll m a bs) = true := by
  induction bs generalizing m a with
  | nil => exact hw
  | cons b bs ih =>
    rw [List.length_cons] at ha
    exact ih _ _ (by omega) (Memory.write_wf m (by omega) hw)

/-! ### Reads -/

theorem Memory.read_nil (a : Nat) : Memory.read [] a = Config.unwrittenByte := rfl

theorem Memory.read_cons (x a : Nat) (v : Byte) (m : List Host.Cell) :
    Memory.read ((x, v) :: m) a = if x = a then v else Memory.read m a := by
  unfold Memory.read
  by_cases h : x = a
  · simp [h]
  · rw [List.find?_cons_of_neg (by simpa using h), if_neg h]

theorem Memory.read_of_above {a : Nat} {m : List Host.Cell} (h : Memory.above a m) :
    Memory.read m a = Config.unwrittenByte := by
  induction m with
  | nil => rfl
  | cons c m ih =>
    obtain ⟨x, v⟩ := c
    have hx : a < x := h (x, v) List.mem_cons_self
    rw [Memory.read_cons, if_neg (by omega)]
    exact ih fun d hd => h d (List.mem_cons_of_mem _ hd)

theorem Memory.read_putCell {x a : Nat} {v : Byte} {m : List Host.Cell} (h : Memory.above x m) :
    Memory.read (Memory.cons x v m) a = if x = a then v else Memory.read m a := by
  unfold Memory.cons
  by_cases hv : v = Config.unwrittenByte
  · rw [if_pos hv]
    by_cases hx : x = a
    · subst hx; rw [if_pos rfl, hv]; exact Memory.read_of_above h
    · rw [if_neg hx]
  · rw [if_neg hv]; exact Memory.read_cons _ _ _ _

/-- A read after a write: the byte written at its address, every other address as before. -/
theorem Memory.read_write {x a : Nat} {v : Byte} (m : List Host.Cell) (hw : Memory.wf m = true) :
    Memory.read (Memory.write m x v) a = if x = a then v else Memory.read m a := by
  induction m with
  | nil => exact Memory.read_putCell (by simp [Memory.above])
  | cons c m ih =>
    obtain ⟨y, w⟩ := c
    obtain ⟨-, -, hab, hwm⟩ := (Memory.wf_cons_iff y w m).mp hw
    unfold Memory.write; split
    · next h =>
      exact Memory.read_putCell (Memory.above_cons h (Memory.above_mono (le_of_lt h) hab))
    · split
      · next h =>
        subst h
        rw [Memory.read_putCell hab, Memory.read_cons]
        by_cases hx : x = a <;> simp [hx]
      · next h1 h2 =>
        rw [Memory.read_cons, Memory.read_cons, ih hwm]
        by_cases hy : y = a
        · simp [hy, show x ≠ a by omega]
        · simp [hy]

/-- A read after bytes were written: the byte of its place inside them, every other address as before. -/
theorem Memory.read_writeAll (bs : List Byte) (m : List Host.Cell) (x a : Nat)
    (hx : x + bs.length ≤ Config.memoryBytes) (hw : Memory.wf m = true) :
    Memory.read (Memory.writeAll m x bs) a =
      if x ≤ a ∧ a < x + bs.length then bs.getD (a - x) 0 else Memory.read m a := by
  induction bs generalizing m x with
  | nil => simp [Memory.writeAll]
  | cons b bs ih =>
    rw [List.length_cons] at hx
    rw [Memory.writeAll, ih _ _ (by omega) (Memory.write_wf m (by omega) hw), Memory.read_write m hw,
      List.length_cons]
    by_cases h1 : x = a
    · subst h1; simp
    · rw [if_neg h1]
      by_cases h2 : x + 1 ≤ a ∧ a < x + 1 + bs.length
      · rw [if_pos h2, if_pos (by omega), show a - x = (a - (x + 1)) + 1 by omega]
        rfl
      · rw [if_neg h2, if_neg (by omega)]

/-- The bytes just written, read back. -/
theorem Memory.slice_writeAll (bs : List Byte) (m : List Host.Cell) (x : Nat)
    (hx : x + bs.length ≤ Config.memoryBytes) (hw : Memory.wf m = true) :
    Memory.slice (Memory.writeAll m x bs) x bs.length = bs := by
  apply List.ext_getElem
  · simp [Memory.slice]
  · intro i h1 h2
    simp only [Memory.slice, List.getElem_map, List.getElem_range]
    rw [Memory.read_writeAll bs m x _ hx hw, if_pos (by omega)]
    simp [List.getD_eq_getElem?_getD, h2]

/-- A stretch of an empty memory that holds `bs` from its start. -/
theorem Memory.slice_held (bs : List Byte) (x n : Nat) (hn : x + n ≤ bs.length)
    (hb : bs.length ≤ Config.memoryBytes) :
    Memory.slice (Memory.writeAll [] 0 bs) x n = (bs.drop x).take n := by
  apply List.ext_getElem
  · simp [Memory.slice]; omega
  · intro i h1 h2
    have hi : i < n := by simpa [Memory.slice] using h1
    simp only [Memory.slice, List.getElem_map, List.getElem_range, List.getElem_take, List.getElem_drop]
    rw [Memory.read_writeAll bs [] 0 _ (by omega) rfl, if_pos (by omega), Nat.sub_zero,
      List.getD_eq_getElem?_getD, List.getElem?_eq_getElem (by omega), Option.getD_some]

/-- Whether a memory that holds 436 bytes is a valid image, judged on the bytes (R175, R180). -/
theorem imageValid_held (bs : List Byte) (h : bs.length = imageLength)
    (hl : wordAt (bs.take 8) 4 = sectionsLength) :
    imageValid (Memory.writeAll [] 0 bs) =
      (longAt (bs.take 8) 0 == imageMarker.toNat && openingsOk bs &&
        byteSum (bs.drop 8) == wordAt (bs.take 8) 6) := by
  have hm : bs.length ≤ Config.memoryBytes := by rw [h]; decide
  have h8 : (bs.drop 8).length = sectionsLength := by rw [List.length_drop, h]; rfl
  have e0 := Memory.slice_held bs 0 8 (by rw [h]; decide) hm
  have e1 := Memory.slice_held bs 0 imageLength (by omega) hm
  have e2 := Memory.slice_held bs 8 sectionsLength (by rw [h]; decide) hm
  rw [List.drop_zero] at e0 e1
  rw [List.take_of_length_le h.le] at e1
  rw [List.take_of_length_le h8.le] at e2
  simp only [imageValid, e0, e1, e2, hl]
  simp [show sectionsLength + 8 ≤ Config.memoryBytes by decide]

/-- A save cut off at any point leaves the memory in its canonical form (R176). -/
theorem saveProgress_wf {image : List Byte} (hi : image.length = imageLength) (free : Nat) (stage : SaveStage)
    (offset : Nat) {m : List Host.Cell} (hm : Memory.wf m = true) :
    Memory.wf (saveProgress image free stage offset m) = true := by
  have fits : ∀ (a : Nat) (bs : List Byte) {k : List Host.Cell}, a + bs.length ≤ 440 → Memory.wf k = true →
      Memory.wf (Memory.writeAll k a bs) = true := fun a bs k h hk =>
    Memory.writeAll_wf bs k a (by simp only [Config.memoryBytes]; omega) hk
  have blank : (put32 (overwritten free).toNat).length = 4 := rfl
  simp only [imageLength] at hi
  have started := fits 0 (put32 (overwritten free).toNat) (by omega) hm
  cases stage with
  | marker => exact started
  | sections =>
    simp only [saveProgress]
    split
    · exact fits _ _ (by simp; omega) started
    · exact fits _ _ (by simp; omega) (fits _ _ (by simp; omega) started)
  | finish => exact fits _ _ (by simp) (fits _ _ (by simp; omega) started)

/-- A save that fails for want of an acknowledgement leaves the memory in its canonical form (R176). -/
theorem failProgress_wf {image : List Byte} (hi : image.length = imageLength) (free : Nat) (stage : SaveStage)
    (offset : Nat) {m : List Host.Cell} (hm : Memory.wf m = true) :
    Memory.wf (failProgress image free stage offset m) = true := by
  cases stage with
  | marker => exact saveProgress_wf hi free .marker offset hm
  | sections => exact saveProgress_wf hi free .sections offset hm
  | finish => exact Memory.writeAll_wf _ _ _ (by simp [unverifiedImage, hi, imageLength, Config.memoryBytes]) hm

end Sys2Proof.Machine
end

