-- ==== Sys2Proof/Laws/State.lean ====
section
/-! SUPPORT. The small lemmas of every update of the state: what it changes, and, field by field, that it
changes nothing else; so that no later proof unfolds a record update. -/

namespace Sys2Proof.Machine

variable (s : State)

/-! ### State.modPort -/

section
variable (p : PortNo) (f : Port → Port)
@[simp] theorem State.modPort_phase : (s.modPort p f).phase = s.phase := rfl
@[simp] theorem State.modPort_memory : (s.modPort p f).memory = s.memory := rfl
@[simp] theorem State.modPort_configStatus : (s.modPort p f).configStatus = s.configStatus := rfl
@[simp] theorem State.modPort_saving : (s.modPort p f).saving = s.saving := rfl
@[simp] theorem State.modPort_freeCount : (s.modPort p f).freeCount = s.freeCount := rfl
@[simp] theorem State.modPort_clock : (s.modPort p f).clock = s.clock := rfl
@[simp] theorem State.modPort_requests : (s.modPort p f).requests = s.requests := rfl
@[simp] theorem State.modPort_notices : (s.modPort p f).notices = s.notices := rfl
@[simp] theorem State.modPort_noticeOverflow : (s.modPort p f).noticeOverflow = s.noticeOverflow := rfl
@[simp] theorem State.modPort_limits : (s.modPort p f).limits = s.limits := rfl
@[simp] theorem State.modPort_gains : (s.modPort p f).gains = s.gains := rfl
@[simp] theorem State.modPort_log : (s.modPort p f).log = s.log := rfl
@[simp] theorem State.modPort_ports :
    (s.modPort p f).ports = s.ports.set p (f s.ports[p]) := rfl
@[simp] theorem State.modPort_sources : (s.modPort p f).sources = s.sources := rfl
@[simp] theorem State.modPort_lastUnknown : (s.modPort p f).lastUnknown = s.lastUnknown := rfl
@[simp] theorem State.modPort_hearing : (s.modPort p f).hearing = s.hearing := rfl
@[simp] theorem State.modPort_guideFrozen : (s.modPort p f).guideFrozen = s.guideFrozen := rfl
@[simp] theorem State.modPort_tours : (s.modPort p f).tours = s.tours := rfl
@[simp] theorem State.modPort_programs : (s.modPort p f).programs = s.programs := rfl
@[simp] theorem State.modPort_zones : (s.modPort p f).zones = s.zones := rfl
@[simp] theorem State.modPort_announcements : (s.modPort p f).announcements = s.announcements := rfl
@[simp] theorem State.modPort_galleries : (s.modPort p f).galleries = s.galleries := rfl
@[simp] theorem State.modPort_receivers : (s.modPort p f).receivers = s.receivers := rfl
@[simp] theorem State.modPort_pool : (s.modPort p f).pool = s.pool := rfl
@[simp] theorem State.modPort_outfits : (s.modPort p f).outfits = s.outfits := rfl
@[simp] theorem State.modPort_nextOrder : (s.modPort p f).nextOrder = s.nextOrder := rfl
@[simp] theorem State.modPort_racks : (s.modPort p f).racks = s.racks := rfl
@[simp] theorem State.modPort_pending : (s.modPort p f).pending = s.pending := rfl
end

/-! ### State.modSource -/

section
variable (i : SourceSlot) (f : Source → Source)
@[simp] theorem State.modSource_phase : (s.modSource i f).phase = s.phase := rfl
@[simp] theorem State.modSource_memory : (s.modSource i f).memory = s.memory := rfl
@[simp] theorem State.modSource_configStatus : (s.modSource i f).configStatus = s.configStatus := rfl
@[simp] theorem State.modSource_saving : (s.modSource i f).saving = s.saving := rfl
@[simp] theorem State.modSource_freeCount : (s.modSource i f).freeCount = s.freeCount := rfl
@[simp] theorem State.modSource_clock : (s.modSource i f).clock = s.clock := rfl
@[simp] theorem State.modSource_requests : (s.modSource i f).requests = s.requests := rfl
@[simp] theorem State.modSource_notices : (s.modSource i f).notices = s.notices := rfl
@[simp] theorem State.modSource_noticeOverflow : (s.modSource i f).noticeOverflow = s.noticeOverflow := rfl
@[simp] theorem State.modSource_limits : (s.modSource i f).limits = s.limits := rfl
@[simp] theorem State.modSource_gains : (s.modSource i f).gains = s.gains := rfl
@[simp] theorem State.modSource_log : (s.modSource i f).log = s.log := rfl
@[simp] theorem State.modSource_ports : (s.modSource i f).ports = s.ports := rfl
@[simp] theorem State.modSource_sources :
    (s.modSource i f).sources = s.sources.set i (f s.sources[i]) := rfl
@[simp] theorem State.modSource_lastUnknown : (s.modSource i f).lastUnknown = s.lastUnknown := rfl
@[simp] theorem State.modSource_hearing : (s.modSource i f).hearing = s.hearing := rfl
@[simp] theorem State.modSource_guideFrozen : (s.modSource i f).guideFrozen = s.guideFrozen := rfl
@[simp] theorem State.modSource_tours : (s.modSource i f).tours = s.tours := rfl
@[simp] theorem State.modSource_programs : (s.modSource i f).programs = s.programs := rfl
@[simp] theorem State.modSource_zones : (s.modSource i f).zones = s.zones := rfl
@[simp] theorem State.modSource_announcements : (s.modSource i f).announcements = s.announcements := rfl
@[simp] theorem State.modSource_galleries : (s.modSource i f).galleries = s.galleries := rfl
@[simp] theorem State.modSource_receivers : (s.modSource i f).receivers = s.receivers := rfl
@[simp] theorem State.modSource_pool : (s.modSource i f).pool = s.pool := rfl
@[simp] theorem State.modSource_outfits : (s.modSource i f).outfits = s.outfits := rfl
@[simp] theorem State.modSource_nextOrder : (s.modSource i f).nextOrder = s.nextOrder := rfl
@[simp] theorem State.modSource_racks : (s.modSource i f).racks = s.racks := rfl
@[simp] theorem State.modSource_pending : (s.modSource i f).pending = s.pending := rfl
end

/-! ### State.modTour -/

section
variable (t : TourNo) (f : Tour → Tour)
@[simp] theorem State.modTour_phase : (s.modTour t f).phase = s.phase := rfl
@[simp] theorem State.modTour_memory : (s.modTour t f).memory = s.memory := rfl
@[simp] theorem State.modTour_configStatus : (s.modTour t f).configStatus = s.configStatus := rfl
@[simp] theorem State.modTour_saving : (s.modTour t f).saving = s.saving := rfl
@[simp] theorem State.modTour_freeCount : (s.modTour t f).freeCount = s.freeCount := rfl
@[simp] theorem State.modTour_clock : (s.modTour t f).clock = s.clock := rfl
@[simp] theorem State.modTour_requests : (s.modTour t f).requests = s.requests := rfl
@[simp] theorem State.modTour_notices : (s.modTour t f).notices = s.notices := rfl
@[simp] theorem State.modTour_noticeOverflow : (s.modTour t f).noticeOverflow = s.noticeOverflow := rfl
@[simp] theorem State.modTour_limits : (s.modTour t f).limits = s.limits := rfl
@[simp] theorem State.modTour_gains : (s.modTour t f).gains = s.gains := rfl
@[simp] theorem State.modTour_log : (s.modTour t f).log = s.log := rfl
@[simp] theorem State.modTour_ports : (s.modTour t f).ports = s.ports := rfl
@[simp] theorem State.modTour_sources : (s.modTour t f).sources = s.sources := rfl
@[simp] theorem State.modTour_lastUnknown : (s.modTour t f).lastUnknown = s.lastUnknown := rfl
@[simp] theorem State.modTour_hearing : (s.modTour t f).hearing = s.hearing := rfl
@[simp] theorem State.modTour_guideFrozen : (s.modTour t f).guideFrozen = s.guideFrozen := rfl
@[simp] theorem State.modTour_tours :
    (s.modTour t f).tours = s.tours.set t (f s.tours[t]) := rfl
@[simp] theorem State.modTour_programs : (s.modTour t f).programs = s.programs := rfl
@[simp] theorem State.modTour_zones : (s.modTour t f).zones = s.zones := rfl
@[simp] theorem State.modTour_announcements : (s.modTour t f).announcements = s.announcements := rfl
@[simp] theorem State.modTour_galleries : (s.modTour t f).galleries = s.galleries := rfl
@[simp] theorem State.modTour_receivers : (s.modTour t f).receivers = s.receivers := rfl
@[simp] theorem State.modTour_pool : (s.modTour t f).pool = s.pool := rfl
@[simp] theorem State.modTour_outfits : (s.modTour t f).outfits = s.outfits := rfl
@[simp] theorem State.modTour_nextOrder : (s.modTour t f).nextOrder = s.nextOrder := rfl
@[simp] theorem State.modTour_racks : (s.modTour t f).racks = s.racks := rfl
@[simp] theorem State.modTour_pending : (s.modTour t f).pending = s.pending := rfl
end

/-! ### State.modProgram -/

section
variable (p : ProgNo) (f : Program → Program)
@[simp] theorem State.modProgram_phase : (s.modProgram p f).phase = s.phase := rfl
@[simp] theorem State.modProgram_memory : (s.modProgram p f).memory = s.memory := rfl
@[simp] theorem State.modProgram_configStatus : (s.modProgram p f).configStatus = s.configStatus := rfl
@[simp] theorem State.modProgram_saving : (s.modProgram p f).saving = s.saving := rfl
@[simp] theorem State.modProgram_freeCount : (s.modProgram p f).freeCount = s.freeCount := rfl
@[simp] theorem State.modProgram_clock : (s.modProgram p f).clock = s.clock := rfl
@[simp] theorem State.modProgram_requests : (s.modProgram p f).requests = s.requests := rfl
@[simp] theorem State.modProgram_notices : (s.modProgram p f).notices = s.notices := rfl
@[simp] theorem State.modProgram_noticeOverflow : (s.modProgram p f).noticeOverflow = s.noticeOverflow := rfl
@[simp] theorem State.modProgram_limits : (s.modProgram p f).limits = s.limits := rfl
@[simp] theorem State.modProgram_gains : (s.modProgram p f).gains = s.gains := rfl
@[simp] theorem State.modProgram_log : (s.modProgram p f).log = s.log := rfl
@[simp] theorem State.modProgram_ports : (s.modProgram p f).ports = s.ports := rfl
@[simp] theorem State.modProgram_sources : (s.modProgram p f).sources = s.sources := rfl
@[simp] theorem State.modProgram_lastUnknown : (s.modProgram p f).lastUnknown = s.lastUnknown := rfl
@[simp] theorem State.modProgram_hearing : (s.modProgram p f).hearing = s.hearing := rfl
@[simp] theorem State.modProgram_guideFrozen : (s.modProgram p f).guideFrozen = s.guideFrozen := rfl
@[simp] theorem State.modProgram_tours : (s.modProgram p f).tours = s.tours := rfl
@[simp] theorem State.modProgram_programs :
    (s.modProgram p f).programs = s.programs.set p (f s.programs[p]) := rfl
@[simp] theorem State.modProgram_zones : (s.modProgram p f).zones = s.zones := rfl
@[simp] theorem State.modProgram_announcements : (s.modProgram p f).announcements = s.announcements := rfl
@[simp] theorem State.modProgram_galleries : (s.modProgram p f).galleries = s.galleries := rfl
@[simp] theorem State.modProgram_receivers : (s.modProgram p f).receivers = s.receivers := rfl
@[simp] theorem State.modProgram_pool : (s.modProgram p f).pool = s.pool := rfl
@[simp] theorem State.modProgram_outfits : (s.modProgram p f).outfits = s.outfits := rfl
@[simp] theorem State.modProgram_nextOrder : (s.modProgram p f).nextOrder = s.nextOrder := rfl
@[simp] theorem State.modProgram_racks : (s.modProgram p f).racks = s.racks := rfl
@[simp] theorem State.modProgram_pending : (s.modProgram p f).pending = s.pending := rfl
end

/-! ### State.modGallery -/

section
variable (g : PortNo) (f : Gallery → Gallery)
@[simp] theorem State.modGallery_phase : (s.modGallery g f).phase = s.phase := rfl
@[simp] theorem State.modGallery_memory : (s.modGallery g f).memory = s.memory := rfl
@[simp] theorem State.modGallery_configStatus : (s.modGallery g f).configStatus = s.configStatus := rfl
@[simp] theorem State.modGallery_saving : (s.modGallery g f).saving = s.saving := rfl
@[simp] theorem State.modGallery_freeCount : (s.modGallery g f).freeCount = s.freeCount := rfl
@[simp] theorem State.modGallery_clock : (s.modGallery g f).clock = s.clock := rfl
@[simp] theorem State.modGallery_requests : (s.modGallery g f).requests = s.requests := rfl
@[simp] theorem State.modGallery_notices : (s.modGallery g f).notices = s.notices := rfl
@[simp] theorem State.modGallery_noticeOverflow : (s.modGallery g f).noticeOverflow = s.noticeOverflow := rfl
@[simp] theorem State.modGallery_limits : (s.modGallery g f).limits = s.limits := rfl
@[simp] theorem State.modGallery_gains : (s.modGallery g f).gains = s.gains := rfl
@[simp] theorem State.modGallery_log : (s.modGallery g f).log = s.log := rfl
@[simp] theorem State.modGallery_ports : (s.modGallery g f).ports = s.ports := rfl
@[simp] theorem State.modGallery_sources : (s.modGallery g f).sources = s.sources := rfl
@[simp] theorem State.modGallery_lastUnknown : (s.modGallery g f).lastUnknown = s.lastUnknown := rfl
@[simp] theorem State.modGallery_hearing : (s.modGallery g f).hearing = s.hearing := rfl
@[simp] theorem State.modGallery_guideFrozen : (s.modGallery g f).guideFrozen = s.guideFrozen := rfl
@[simp] theorem State.modGallery_tours : (s.modGallery g f).tours = s.tours := rfl
@[simp] theorem State.modGallery_programs : (s.modGallery g f).programs = s.programs := rfl
@[simp] theorem State.modGallery_zones : (s.modGallery g f).zones = s.zones := rfl
@[simp] theorem State.modGallery_announcements : (s.modGallery g f).announcements = s.announcements := rfl
@[simp] theorem State.modGallery_galleries :
    (s.modGallery g f).galleries = s.galleries.set g (f s.galleries[g]) := rfl
@[simp] theorem State.modGallery_receivers : (s.modGallery g f).receivers = s.receivers := rfl
@[simp] theorem State.modGallery_pool : (s.modGallery g f).pool = s.pool := rfl
@[simp] theorem State.modGallery_outfits : (s.modGallery g f).outfits = s.outfits := rfl
@[simp] theorem State.modGallery_nextOrder : (s.modGallery g f).nextOrder = s.nextOrder := rfl
@[simp] theorem State.modGallery_racks : (s.modGallery g f).racks = s.racks := rfl
@[simp] theorem State.modGallery_pending : (s.modGallery g f).pending = s.pending := rfl
end

/-! ### State.modCarrier -/

section
variable (g : PortNo) (c : CarrierNo) (f : Carrier → Carrier)
@[simp] theorem State.modCarrier_phase : (s.modCarrier g c f).phase = s.phase := rfl
@[simp] theorem State.modCarrier_memory : (s.modCarrier g c f).memory = s.memory := rfl
@[simp] theorem State.modCarrier_configStatus : (s.modCarrier g c f).configStatus = s.configStatus := rfl
@[simp] theorem State.modCarrier_saving : (s.modCarrier g c f).saving = s.saving := rfl
@[simp] theorem State.modCarrier_freeCount : (s.modCarrier g c f).freeCount = s.freeCount := rfl
@[simp] theorem State.modCarrier_clock : (s.modCarrier g c f).clock = s.clock := rfl
@[simp] theorem State.modCarrier_requests : (s.modCarrier g c f).requests = s.requests := rfl
@[simp] theorem State.modCarrier_notices : (s.modCarrier g c f).notices = s.notices := rfl
@[simp] theorem State.modCarrier_noticeOverflow : (s.modCarrier g c f).noticeOverflow = s.noticeOverflow := rfl
@[simp] theorem State.modCarrier_limits : (s.modCarrier g c f).limits = s.limits := rfl
@[simp] theorem State.modCarrier_gains : (s.modCarrier g c f).gains = s.gains := rfl
@[simp] theorem State.modCarrier_log : (s.modCarrier g c f).log = s.log := rfl
@[simp] theorem State.modCarrier_ports : (s.modCarrier g c f).ports = s.ports := rfl
@[simp] theorem State.modCarrier_sources : (s.modCarrier g c f).sources = s.sources := rfl
@[simp] theorem State.modCarrier_lastUnknown : (s.modCarrier g c f).lastUnknown = s.lastUnknown := rfl
@[simp] theorem State.modCarrier_hearing : (s.modCarrier g c f).hearing = s.hearing := rfl
@[simp] theorem State.modCarrier_guideFrozen : (s.modCarrier g c f).guideFrozen = s.guideFrozen := rfl
@[simp] theorem State.modCarrier_tours : (s.modCarrier g c f).tours = s.tours := rfl
@[simp] theorem State.modCarrier_programs : (s.modCarrier g c f).programs = s.programs := rfl
@[simp] theorem State.modCarrier_zones : (s.modCarrier g c f).zones = s.zones := rfl
@[simp] theorem State.modCarrier_announcements : (s.modCarrier g c f).announcements = s.announcements := rfl
@[simp] theorem State.modCarrier_galleries :
    (s.modCarrier g c f).galleries = s.galleries.set g { s.galleries[g] with
      carriers := s.galleries[g].carriers.set c (f s.galleries[g].carriers[c]) } := rfl
@[simp] theorem State.modCarrier_receivers : (s.modCarrier g c f).receivers = s.receivers := rfl
@[simp] theorem State.modCarrier_pool : (s.modCarrier g c f).pool = s.pool := rfl
@[simp] theorem State.modCarrier_outfits : (s.modCarrier g c f).outfits = s.outfits := rfl
@[simp] theorem State.modCarrier_nextOrder : (s.modCarrier g c f).nextOrder = s.nextOrder := rfl
@[simp] theorem State.modCarrier_racks : (s.modCarrier g c f).racks = s.racks := rfl
@[simp] theorem State.modCarrier_pending : (s.modCarrier g c f).pending = s.pending := rfl
end

/-! ### State.modReceiver -/

section
variable (r : RecNo) (f : Receiver → Receiver)
@[simp] theorem State.modReceiver_phase : (s.modReceiver r f).phase = s.phase := rfl
@[simp] theorem State.modReceiver_memory : (s.modReceiver r f).memory = s.memory := rfl
@[simp] theorem State.modReceiver_configStatus : (s.modReceiver r f).configStatus = s.configStatus := rfl
@[simp] theorem State.modReceiver_saving : (s.modReceiver r f).saving = s.saving := rfl
@[simp] theorem State.modReceiver_freeCount : (s.modReceiver r f).freeCount = s.freeCount := rfl
@[simp] theorem State.modReceiver_clock : (s.modReceiver r f).clock = s.clock := rfl
@[simp] theorem State.modReceiver_requests : (s.modReceiver r f).requests = s.requests := rfl
@[simp] theorem State.modReceiver_notices : (s.modReceiver r f).notices = s.notices := rfl
@[simp] theorem State.modReceiver_noticeOverflow : (s.modReceiver r f).noticeOverflow = s.noticeOverflow := rfl
@[simp] theorem State.modReceiver_limits : (s.modReceiver r f).limits = s.limits := rfl
@[simp] theorem State.modReceiver_gains : (s.modReceiver r f).gains = s.gains := rfl
@[simp] theorem State.modReceiver_log : (s.modReceiver r f).log = s.log := rfl
@[simp] theorem State.modReceiver_ports : (s.modReceiver r f).ports = s.ports := rfl
@[simp] theorem State.modReceiver_sources : (s.modReceiver r f).sources = s.sources := rfl
@[simp] theorem State.modReceiver_lastUnknown : (s.modReceiver r f).lastUnknown = s.lastUnknown := rfl
@[simp] theorem State.modReceiver_hearing : (s.modReceiver r f).hearing = s.hearing := rfl
@[simp] theorem State.modReceiver_guideFrozen : (s.modReceiver r f).guideFrozen = s.guideFrozen := rfl
@[simp] theorem State.modReceiver_tours : (s.modReceiver r f).tours = s.tours := rfl
@[simp] theorem State.modReceiver_programs : (s.modReceiver r f).programs = s.programs := rfl
@[simp] theorem State.modReceiver_zones : (s.modReceiver r f).zones = s.zones := rfl
@[simp] theorem State.modReceiver_announcements : (s.modReceiver r f).announcements = s.announcements := rfl
@[simp] theorem State.modReceiver_galleries : (s.modReceiver r f).galleries = s.galleries := rfl
@[simp] theorem State.modReceiver_receivers :
    (s.modReceiver r f).receivers = s.receivers.set r (f s.receivers[r]) := rfl
@[simp] theorem State.modReceiver_pool : (s.modReceiver r f).pool = s.pool := rfl
@[simp] theorem State.modReceiver_outfits : (s.modReceiver r f).outfits = s.outfits := rfl
@[simp] theorem State.modReceiver_nextOrder : (s.modReceiver r f).nextOrder = s.nextOrder := rfl
@[simp] theorem State.modReceiver_racks : (s.modReceiver r f).racks = s.racks := rfl
@[simp] theorem State.modReceiver_pending : (s.modReceiver r f).pending = s.pending := rfl
end

/-! ### State.noteReceiver -/

section
variable (r : RecNo) (f : ReceiverData → ReceiverData)
@[simp] theorem State.noteReceiver_phase : (s.noteReceiver r f).phase = s.phase := rfl
@[simp] theorem State.noteReceiver_memory : (s.noteReceiver r f).memory = s.memory := rfl
@[simp] theorem State.noteReceiver_configStatus : (s.noteReceiver r f).configStatus = s.configStatus := rfl
@[simp] theorem State.noteReceiver_saving : (s.noteReceiver r f).saving = s.saving := rfl
@[simp] theorem State.noteReceiver_freeCount : (s.noteReceiver r f).freeCount = s.freeCount := rfl
@[simp] theorem State.noteReceiver_clock : (s.noteReceiver r f).clock = s.clock := rfl
@[simp] theorem State.noteReceiver_requests : (s.noteReceiver r f).requests = s.requests := rfl
@[simp] theorem State.noteReceiver_notices : (s.noteReceiver r f).notices = s.notices := rfl
@[simp] theorem State.noteReceiver_noticeOverflow : (s.noteReceiver r f).noticeOverflow = s.noticeOverflow := rfl
@[simp] theorem State.noteReceiver_limits : (s.noteReceiver r f).limits = s.limits := rfl
@[simp] theorem State.noteReceiver_gains : (s.noteReceiver r f).gains = s.gains := rfl
@[simp] theorem State.noteReceiver_log : (s.noteReceiver r f).log = s.log := rfl
@[simp] theorem State.noteReceiver_ports : (s.noteReceiver r f).ports = s.ports := rfl
@[simp] theorem State.noteReceiver_sources : (s.noteReceiver r f).sources = s.sources := rfl
@[simp] theorem State.noteReceiver_lastUnknown : (s.noteReceiver r f).lastUnknown = s.lastUnknown := rfl
@[simp] theorem State.noteReceiver_hearing : (s.noteReceiver r f).hearing = s.hearing := rfl
@[simp] theorem State.noteReceiver_guideFrozen : (s.noteReceiver r f).guideFrozen = s.guideFrozen := rfl
@[simp] theorem State.noteReceiver_tours : (s.noteReceiver r f).tours = s.tours := rfl
@[simp] theorem State.noteReceiver_programs : (s.noteReceiver r f).programs = s.programs := rfl
@[simp] theorem State.noteReceiver_zones : (s.noteReceiver r f).zones = s.zones := rfl
@[simp] theorem State.noteReceiver_announcements : (s.noteReceiver r f).announcements = s.announcements := rfl
@[simp] theorem State.noteReceiver_galleries : (s.noteReceiver r f).galleries = s.galleries := rfl
@[simp] theorem State.noteReceiver_receivers :
    (s.noteReceiver r f).receivers = s.receivers.set r { s.receivers[r] with data := s.receivers[r].data.map f } := rfl
@[simp] theorem State.noteReceiver_pool : (s.noteReceiver r f).pool = s.pool := rfl
@[simp] theorem State.noteReceiver_outfits : (s.noteReceiver r f).outfits = s.outfits := rfl
@[simp] theorem State.noteReceiver_nextOrder : (s.noteReceiver r f).nextOrder = s.nextOrder := rfl
@[simp] theorem State.noteReceiver_racks : (s.noteReceiver r f).racks = s.racks := rfl
@[simp] theorem State.noteReceiver_pending : (s.noteReceiver r f).pending = s.pending := rfl
end

/-! ### State.changeReceiver -/

section
variable (r : RecNo) (f : ReceiverData → ReceiverData)
@[simp] theorem State.changeReceiver_phase : (s.changeReceiver r f).phase = s.phase := rfl
@[simp] theorem State.changeReceiver_memory : (s.changeReceiver r f).memory = s.memory := rfl
@[simp] theorem State.changeReceiver_configStatus : (s.changeReceiver r f).configStatus = s.configStatus := rfl
@[simp] theorem State.changeReceiver_saving : (s.changeReceiver r f).saving = s.saving := rfl
@[simp] theorem State.changeReceiver_freeCount : (s.changeReceiver r f).freeCount = s.freeCount := rfl
@[simp] theorem State.changeReceiver_clock : (s.changeReceiver r f).clock = s.clock := rfl
@[simp] theorem State.changeReceiver_requests : (s.changeReceiver r f).requests = s.requests := rfl
@[simp] theorem State.changeReceiver_notices : (s.changeReceiver r f).notices = s.notices := rfl
@[simp] theorem State.changeReceiver_noticeOverflow : (s.changeReceiver r f).noticeOverflow = s.noticeOverflow := rfl
@[simp] theorem State.changeReceiver_limits : (s.changeReceiver r f).limits = s.limits := rfl
@[simp] theorem State.changeReceiver_gains : (s.changeReceiver r f).gains = s.gains := rfl
@[simp] theorem State.changeReceiver_log : (s.changeReceiver r f).log = s.log := rfl
@[simp] theorem State.changeReceiver_ports : (s.changeReceiver r f).ports = s.ports := rfl
@[simp] theorem State.changeReceiver_sources : (s.changeReceiver r f).sources = s.sources := rfl
@[simp] theorem State.changeReceiver_lastUnknown : (s.changeReceiver r f).lastUnknown = s.lastUnknown := rfl
@[simp] theorem State.changeReceiver_hearing : (s.changeReceiver r f).hearing = s.hearing := rfl
@[simp] theorem State.changeReceiver_guideFrozen : (s.changeReceiver r f).guideFrozen = s.guideFrozen := rfl
@[simp] theorem State.changeReceiver_tours : (s.changeReceiver r f).tours = s.tours := rfl
@[simp] theorem State.changeReceiver_programs : (s.changeReceiver r f).programs = s.programs := rfl
@[simp] theorem State.changeReceiver_zones : (s.changeReceiver r f).zones = s.zones := rfl
@[simp] theorem State.changeReceiver_announcements : (s.changeReceiver r f).announcements = s.announcements := rfl
@[simp] theorem State.changeReceiver_galleries : (s.changeReceiver r f).galleries = s.galleries := rfl
@[simp] theorem State.changeReceiver_receivers :
    (s.changeReceiver r f).receivers = s.receivers.set r
      { data := s.receivers[r].data.map f, generation := s.receivers[r].generation + 1 } := rfl
@[simp] theorem State.changeReceiver_pool : (s.changeReceiver r f).pool = s.pool := rfl
@[simp] theorem State.changeReceiver_outfits : (s.changeReceiver r f).outfits = s.outfits := rfl
@[simp] theorem State.changeReceiver_nextOrder : (s.changeReceiver r f).nextOrder = s.nextOrder := rfl
@[simp] theorem State.changeReceiver_racks : (s.changeReceiver r f).racks = s.racks := rfl
@[simp] theorem State.changeReceiver_pending : (s.changeReceiver r f).pending = s.pending := rfl
end

/-! ### State.modRack -/

section
variable (g : PortNo) (f : Rack → Rack)
@[simp] theorem State.modRack_phase : (s.modRack g f).phase = s.phase := rfl
@[simp] theorem State.modRack_memory : (s.modRack g f).memory = s.memory := rfl
@[simp] theorem State.modRack_configStatus : (s.modRack g f).configStatus = s.configStatus := rfl
@[simp] theorem State.modRack_saving : (s.modRack g f).saving = s.saving := rfl
@[simp] theorem State.modRack_freeCount : (s.modRack g f).freeCount = s.freeCount := rfl
@[simp] theorem State.modRack_clock : (s.modRack g f).clock = s.clock := rfl
@[simp] theorem State.modRack_requests : (s.modRack g f).requests = s.requests := rfl
@[simp] theorem State.modRack_notices : (s.modRack g f).notices = s.notices := rfl
@[simp] theorem State.modRack_noticeOverflow : (s.modRack g f).noticeOverflow = s.noticeOverflow := rfl
@[simp] theorem State.modRack_limits : (s.modRack g f).limits = s.limits := rfl
@[simp] theorem State.modRack_gains : (s.modRack g f).gains = s.gains := rfl
@[simp] theorem State.modRack_log : (s.modRack g f).log = s.log := rfl
@[simp] theorem State.modRack_ports : (s.modRack g f).ports = s.ports := rfl
@[simp] theorem State.modRack_sources : (s.modRack g f).sources = s.sources := rfl
@[simp] theorem State.modRack_lastUnknown : (s.modRack g f).lastUnknown = s.lastUnknown := rfl
@[simp] theorem State.modRack_hearing : (s.modRack g f).hearing = s.hearing := rfl
@[simp] theorem State.modRack_guideFrozen : (s.modRack g f).guideFrozen = s.guideFrozen := rfl
@[simp] theorem State.modRack_tours : (s.modRack g f).tours = s.tours := rfl
@[simp] theorem State.modRack_programs : (s.modRack g f).programs = s.programs := rfl
@[simp] theorem State.modRack_zones : (s.modRack g f).zones = s.zones := rfl
@[simp] theorem State.modRack_announcements : (s.modRack g f).announcements = s.announcements := rfl
@[simp] theorem State.modRack_galleries : (s.modRack g f).galleries = s.galleries := rfl
@[simp] theorem State.modRack_receivers : (s.modRack g f).receivers = s.receivers := rfl
@[simp] theorem State.modRack_pool : (s.modRack g f).pool = s.pool := rfl
@[simp] theorem State.modRack_outfits : (s.modRack g f).outfits = s.outfits := rfl
@[simp] theorem State.modRack_nextOrder : (s.modRack g f).nextOrder = s.nextOrder := rfl
@[simp] theorem State.modRack_racks :
    (s.modRack g f).racks = s.racks.set g (f s.racks[g]) := rfl
@[simp] theorem State.modRack_pending : (s.modRack g f).pending = s.pending := rfl
end

/-! ### State.modSlot -/

section
variable (g : PortNo) (k : RackSlot) (f : SlotEntry → SlotEntry)
@[simp] theorem State.modSlot_phase : (s.modSlot g k f).phase = s.phase := rfl
@[simp] theorem State.modSlot_memory : (s.modSlot g k f).memory = s.memory := rfl
@[simp] theorem State.modSlot_configStatus : (s.modSlot g k f).configStatus = s.configStatus := rfl
@[simp] theorem State.modSlot_saving : (s.modSlot g k f).saving = s.saving := rfl
@[simp] theorem State.modSlot_freeCount : (s.modSlot g k f).freeCount = s.freeCount := rfl
@[simp] theorem State.modSlot_clock : (s.modSlot g k f).clock = s.clock := rfl
@[simp] theorem State.modSlot_requests : (s.modSlot g k f).requests = s.requests := rfl
@[simp] theorem State.modSlot_notices : (s.modSlot g k f).notices = s.notices := rfl
@[simp] theorem State.modSlot_noticeOverflow : (s.modSlot g k f).noticeOverflow = s.noticeOverflow := rfl
@[simp] theorem State.modSlot_limits : (s.modSlot g k f).limits = s.limits := rfl
@[simp] theorem State.modSlot_gains : (s.modSlot g k f).gains = s.gains := rfl
@[simp] theorem State.modSlot_log : (s.modSlot g k f).log = s.log := rfl
@[simp] theorem State.modSlot_ports : (s.modSlot g k f).ports = s.ports := rfl
@[simp] theorem State.modSlot_sources : (s.modSlot g k f).sources = s.sources := rfl
@[simp] theorem State.modSlot_lastUnknown : (s.modSlot g k f).lastUnknown = s.lastUnknown := rfl
@[simp] theorem State.modSlot_hearing : (s.modSlot g k f).hearing = s.hearing := rfl
@[simp] theorem State.modSlot_guideFrozen : (s.modSlot g k f).guideFrozen = s.guideFrozen := rfl
@[simp] theorem State.modSlot_tours : (s.modSlot g k f).tours = s.tours := rfl
@[simp] theorem State.modSlot_programs : (s.modSlot g k f).programs = s.programs := rfl
@[simp] theorem State.modSlot_zones : (s.modSlot g k f).zones = s.zones := rfl
@[simp] theorem State.modSlot_announcements : (s.modSlot g k f).announcements = s.announcements := rfl
@[simp] theorem State.modSlot_galleries : (s.modSlot g k f).galleries = s.galleries := rfl
@[simp] theorem State.modSlot_receivers : (s.modSlot g k f).receivers = s.receivers := rfl
@[simp] theorem State.modSlot_pool : (s.modSlot g k f).pool = s.pool := rfl
@[simp] theorem State.modSlot_outfits : (s.modSlot g k f).outfits = s.outfits := rfl
@[simp] theorem State.modSlot_nextOrder : (s.modSlot g k f).nextOrder = s.nextOrder := rfl
@[simp] theorem State.modSlot_racks :
    (s.modSlot g k f).racks = s.racks.set g { s.racks[g] with
      slots := s.racks[g].slots.set k (f s.racks[g].slots[k]) } := rfl
@[simp] theorem State.modSlot_pending : (s.modSlot g k f).pending = s.pending := rfl
end

/-! ### State.setAnnouncement -/

section
variable (n : AnnNo) (x : Option Announcement)
@[simp] theorem State.setAnnouncement_phase : (s.setAnnouncement n x).phase = s.phase := rfl
@[simp] theorem State.setAnnouncement_memory : (s.setAnnouncement n x).memory = s.memory := rfl
@[simp] theorem State.setAnnouncement_configStatus : (s.setAnnouncement n x).configStatus = s.configStatus := rfl
@[simp] theorem State.setAnnouncement_saving : (s.setAnnouncement n x).saving = s.saving := rfl
@[simp] theorem State.setAnnouncement_freeCount : (s.setAnnouncement n x).freeCount = s.freeCount := rfl
@[simp] theorem State.setAnnouncement_clock : (s.setAnnouncement n x).clock = s.clock := rfl
@[simp] theorem State.setAnnouncement_requests : (s.setAnnouncement n x).requests = s.requests := rfl
@[simp] theorem State.setAnnouncement_notices : (s.setAnnouncement n x).notices = s.notices := rfl
@[simp] theorem State.setAnnouncement_noticeOverflow : (s.setAnnouncement n x).noticeOverflow = s.noticeOverflow := rfl
@[simp] theorem State.setAnnouncement_limits : (s.setAnnouncement n x).limits = s.limits := rfl
@[simp] theorem State.setAnnouncement_gains : (s.setAnnouncement n x).gains = s.gains := rfl
@[simp] theorem State.setAnnouncement_log : (s.setAnnouncement n x).log = s.log := rfl
@[simp] theorem State.setAnnouncement_ports : (s.setAnnouncement n x).ports = s.ports := rfl
@[simp] theorem State.setAnnouncement_sources : (s.setAnnouncement n x).sources = s.sources := rfl
@[simp] theorem State.setAnnouncement_lastUnknown : (s.setAnnouncement n x).lastUnknown = s.lastUnknown := rfl
@[simp] theorem State.setAnnouncement_hearing : (s.setAnnouncement n x).hearing = s.hearing := rfl
@[simp] theorem State.setAnnouncement_guideFrozen : (s.setAnnouncement n x).guideFrozen = s.guideFrozen := rfl
@[simp] theorem State.setAnnouncement_tours : (s.setAnnouncement n x).tours = s.tours := rfl
@[simp] theorem State.setAnnouncement_programs : (s.setAnnouncement n x).programs = s.programs := rfl
@[simp] theorem State.setAnnouncement_zones : (s.setAnnouncement n x).zones = s.zones := rfl
@[simp] theorem State.setAnnouncement_announcements :
    (s.setAnnouncement n x).announcements = s.announcements.set n x := rfl
@[simp] theorem State.setAnnouncement_galleries : (s.setAnnouncement n x).galleries = s.galleries := rfl
@[simp] theorem State.setAnnouncement_receivers : (s.setAnnouncement n x).receivers = s.receivers := rfl
@[simp] theorem State.setAnnouncement_pool : (s.setAnnouncement n x).pool = s.pool := rfl
@[simp] theorem State.setAnnouncement_outfits : (s.setAnnouncement n x).outfits = s.outfits := rfl
@[simp] theorem State.setAnnouncement_nextOrder : (s.setAnnouncement n x).nextOrder = s.nextOrder := rfl
@[simp] theorem State.setAnnouncement_racks : (s.setAnnouncement n x).racks = s.racks := rfl
@[simp] theorem State.setAnnouncement_pending : (s.setAnnouncement n x).pending = s.pending := rfl
end

/-! ### modHearing -/

section
variable (i : SourceSlot) (g : PortNo) (f : HearingRecord → HearingRecord)
@[simp] theorem modHearing_phase : (modHearing i g f s).phase = s.phase := rfl
@[simp] theorem modHearing_memory : (modHearing i g f s).memory = s.memory := rfl
@[simp] theorem modHearing_configStatus : (modHearing i g f s).configStatus = s.configStatus := rfl
@[simp] theorem modHearing_saving : (modHearing i g f s).saving = s.saving := rfl
@[simp] theorem modHearing_freeCount : (modHearing i g f s).freeCount = s.freeCount := rfl
@[simp] theorem modHearing_clock : (modHearing i g f s).clock = s.clock := rfl
@[simp] theorem modHearing_requests : (modHearing i g f s).requests = s.requests := rfl
@[simp] theorem modHearing_notices : (modHearing i g f s).notices = s.notices := rfl
@[simp] theorem modHearing_noticeOverflow : (modHearing i g f s).noticeOverflow = s.noticeOverflow := rfl
@[simp] theorem modHearing_limits : (modHearing i g f s).limits = s.limits := rfl
@[simp] theorem modHearing_gains : (modHearing i g f s).gains = s.gains := rfl
@[simp] theorem modHearing_log : (modHearing i g f s).log = s.log := rfl
@[simp] theorem modHearing_ports : (modHearing i g f s).ports = s.ports := rfl
@[simp] theorem modHearing_sources : (modHearing i g f s).sources = s.sources := rfl
@[simp] theorem modHearing_lastUnknown : (modHearing i g f s).lastUnknown = s.lastUnknown := rfl
@[simp] theorem modHearing_hearing :
    (modHearing i g f s).hearing = s.hearing.map fun r => if isKey i g r then f r else r := rfl
@[simp] theorem modHearing_guideFrozen : (modHearing i g f s).guideFrozen = s.guideFrozen := rfl
@[simp] theorem modHearing_tours : (modHearing i g f s).tours = s.tours := rfl
@[simp] theorem modHearing_programs : (modHearing i g f s).programs = s.programs := rfl
@[simp] theorem modHearing_zones : (modHearing i g f s).zones = s.zones := rfl
@[simp] theorem modHearing_announcements : (modHearing i g f s).announcements = s.announcements := rfl
@[simp] theorem modHearing_galleries : (modHearing i g f s).galleries = s.galleries := rfl
@[simp] theorem modHearing_receivers : (modHearing i g f s).receivers = s.receivers := rfl
@[simp] theorem modHearing_pool : (modHearing i g f s).pool = s.pool := rfl
@[simp] theorem modHearing_outfits : (modHearing i g f s).outfits = s.outfits := rfl
@[simp] theorem modHearing_nextOrder : (modHearing i g f s).nextOrder = s.nextOrder := rfl
@[simp] theorem modHearing_racks : (modHearing i g f s).racks = s.racks := rfl
@[simp] theorem modHearing_pending : (modHearing i g f s).pending = s.pending := rfl
end

/-! ### dropHearing -/

section
variable (i : SourceSlot) (g : PortNo)
@[simp] theorem dropHearing_phase : (dropHearing i g s).phase = s.phase := rfl
@[simp] theorem dropHearing_memory : (dropHearing i g s).memory = s.memory := rfl
@[simp] theorem dropHearing_configStatus : (dropHearing i g s).configStatus = s.configStatus := rfl
@[simp] theorem dropHearing_saving : (dropHearing i g s).saving = s.saving := rfl
@[simp] theorem dropHearing_freeCount : (dropHearing i g s).freeCount = s.freeCount := rfl
@[simp] theorem dropHearing_clock : (dropHearing i g s).clock = s.clock := rfl
@[simp] theorem dropHearing_requests : (dropHearing i g s).requests = s.requests := rfl
@[simp] theorem dropHearing_notices : (dropHearing i g s).notices = s.notices := rfl
@[simp] theorem dropHearing_noticeOverflow : (dropHearing i g s).noticeOverflow = s.noticeOverflow := rfl
@[simp] theorem dropHearing_limits : (dropHearing i g s).limits = s.limits := rfl
@[simp] theorem dropHearing_gains : (dropHearing i g s).gains = s.gains := rfl
@[simp] theorem dropHearing_log : (dropHearing i g s).log = s.log := rfl
@[simp] theorem dropHearing_ports : (dropHearing i g s).ports = s.ports := rfl
@[simp] theorem dropHearing_sources : (dropHearing i g s).sources = s.sources := rfl
@[simp] theorem dropHearing_lastUnknown : (dropHearing i g s).lastUnknown = s.lastUnknown := rfl
@[simp] theorem dropHearing_hearing :
    (dropHearing i g s).hearing = s.hearing.filter fun r => !isKey i g r := rfl
@[simp] theorem dropHearing_guideFrozen : (dropHearing i g s).guideFrozen = s.guideFrozen := rfl
@[simp] theorem dropHearing_tours : (dropHearing i g s).tours = s.tours := rfl
@[simp] theorem dropHearing_programs : (dropHearing i g s).programs = s.programs := rfl
@[simp] theorem dropHearing_zones : (dropHearing i g s).zones = s.zones := rfl
@[simp] theorem dropHearing_announcements : (dropHearing i g s).announcements = s.announcements := rfl
@[simp] theorem dropHearing_galleries : (dropHearing i g s).galleries = s.galleries := rfl
@[simp] theorem dropHearing_receivers : (dropHearing i g s).receivers = s.receivers := rfl
@[simp] theorem dropHearing_pool : (dropHearing i g s).pool = s.pool := rfl
@[simp] theorem dropHearing_outfits : (dropHearing i g s).outfits = s.outfits := rfl
@[simp] theorem dropHearing_nextOrder : (dropHearing i g s).nextOrder = s.nextOrder := rfl
@[simp] theorem dropHearing_racks : (dropHearing i g s).racks = s.racks := rfl
@[simp] theorem dropHearing_pending : (dropHearing i g s).pending = s.pending := rfl
end

/-! ### poolLeave -/

section
variable (r : RecNo)
@[simp] theorem poolLeave_phase : (poolLeave r s).phase = s.phase := rfl
@[simp] theorem poolLeave_memory : (poolLeave r s).memory = s.memory := rfl
@[simp] theorem poolLeave_configStatus : (poolLeave r s).configStatus = s.configStatus := rfl
@[simp] theorem poolLeave_saving : (poolLeave r s).saving = s.saving := rfl
@[simp] theorem poolLeave_freeCount : (poolLeave r s).freeCount = s.freeCount := rfl
@[simp] theorem poolLeave_clock : (poolLeave r s).clock = s.clock := rfl
@[simp] theorem poolLeave_requests : (poolLeave r s).requests = s.requests := rfl
@[simp] theorem poolLeave_notices : (poolLeave r s).notices = s.notices := rfl
@[simp] theorem poolLeave_noticeOverflow : (poolLeave r s).noticeOverflow = s.noticeOverflow := rfl
@[simp] theorem poolLeave_limits : (poolLeave r s).limits = s.limits := rfl
@[simp] theorem poolLeave_gains : (poolLeave r s).gains = s.gains := rfl
@[simp] theorem poolLeave_log : (poolLeave r s).log = s.log := rfl
@[simp] theorem poolLeave_ports : (poolLeave r s).ports = s.ports := rfl
@[simp] theorem poolLeave_sources : (poolLeave r s).sources = s.sources := rfl
@[simp] theorem poolLeave_lastUnknown : (poolLeave r s).lastUnknown = s.lastUnknown := rfl
@[simp] theorem poolLeave_hearing : (poolLeave r s).hearing = s.hearing := rfl
@[simp] theorem poolLeave_guideFrozen : (poolLeave r s).guideFrozen = s.guideFrozen := rfl
@[simp] theorem poolLeave_tours : (poolLeave r s).tours = s.tours := rfl
@[simp] theorem poolLeave_programs : (poolLeave r s).programs = s.programs := rfl
@[simp] theorem poolLeave_zones : (poolLeave r s).zones = s.zones := rfl
@[simp] theorem poolLeave_announcements : (poolLeave r s).announcements = s.announcements := rfl
@[simp] theorem poolLeave_galleries : (poolLeave r s).galleries = s.galleries := rfl
@[simp] theorem poolLeave_receivers : (poolLeave r s).receivers = s.receivers := rfl
@[simp] theorem poolLeave_pool :
    (poolLeave r s).pool = s.pool.filter fun x => !(x == r) := rfl
@[simp] theorem poolLeave_outfits : (poolLeave r s).outfits = s.outfits := rfl
@[simp] theorem poolLeave_nextOrder : (poolLeave r s).nextOrder = s.nextOrder := rfl
@[simp] theorem poolLeave_racks : (poolLeave r s).racks = s.racks := rfl
@[simp] theorem poolLeave_pending : (poolLeave r s).pending = s.pending := rfl
end

/-! ### poolInsert -/

section
variable (r : RecNo)
@[simp] theorem poolInsert_phase : (poolInsert r s).phase = s.phase := rfl
@[simp] theorem poolInsert_memory : (poolInsert r s).memory = s.memory := rfl
@[simp] theorem poolInsert_configStatus : (poolInsert r s).configStatus = s.configStatus := rfl
@[simp] theorem poolInsert_saving : (poolInsert r s).saving = s.saving := rfl
@[simp] theorem poolInsert_freeCount : (poolInsert r s).freeCount = s.freeCount := rfl
@[simp] theorem poolInsert_clock : (poolInsert r s).clock = s.clock := rfl
@[simp] theorem poolInsert_requests : (poolInsert r s).requests = s.requests := rfl
@[simp] theorem poolInsert_notices : (poolInsert r s).notices = s.notices := rfl
@[simp] theorem poolInsert_noticeOverflow : (poolInsert r s).noticeOverflow = s.noticeOverflow := rfl
@[simp] theorem poolInsert_limits : (poolInsert r s).limits = s.limits := rfl
@[simp] theorem poolInsert_gains : (poolInsert r s).gains = s.gains := rfl
@[simp] theorem poolInsert_log : (poolInsert r s).log = s.log := rfl
@[simp] theorem poolInsert_ports : (poolInsert r s).ports = s.ports := rfl
@[simp] theorem poolInsert_sources : (poolInsert r s).sources = s.sources := rfl
@[simp] theorem poolInsert_lastUnknown : (poolInsert r s).lastUnknown = s.lastUnknown := rfl
@[simp] theorem poolInsert_hearing : (poolInsert r s).hearing = s.hearing := rfl
@[simp] theorem poolInsert_guideFrozen : (poolInsert r s).guideFrozen = s.guideFrozen := rfl
@[simp] theorem poolInsert_tours : (poolInsert r s).tours = s.tours := rfl
@[simp] theorem poolInsert_programs : (poolInsert r s).programs = s.programs := rfl
@[simp] theorem poolInsert_zones : (poolInsert r s).zones = s.zones := rfl
@[simp] theorem poolInsert_announcements : (poolInsert r s).announcements = s.announcements := rfl
@[simp] theorem poolInsert_galleries : (poolInsert r s).galleries = s.galleries := rfl
@[simp] theorem poolInsert_receivers : (poolInsert r s).receivers = s.receivers := rfl
@[simp] theorem poolInsert_pool :
    (poolInsert r s).pool = insertBefore (poolBefore s) r s.pool := rfl
@[simp] theorem poolInsert_outfits : (poolInsert r s).outfits = s.outfits := rfl
@[simp] theorem poolInsert_nextOrder : (poolInsert r s).nextOrder = s.nextOrder := rfl
@[simp] theorem poolInsert_racks : (poolInsert r s).racks = s.racks := rfl
@[simp] theorem poolInsert_pending : (poolInsert r s).pending = s.pending := rfl
end

/-! ### modOrder -/

section
variable (n : BitVec 16) (f : OutfitOrder → OutfitOrder)
@[simp] theorem modOrder_phase : (modOrder n f s).phase = s.phase := rfl
@[simp] theorem modOrder_memory : (modOrder n f s).memory = s.memory := rfl
@[simp] theorem modOrder_configStatus : (modOrder n f s).configStatus = s.configStatus := rfl
@[simp] theorem modOrder_saving : (modOrder n f s).saving = s.saving := rfl
@[simp] theorem modOrder_freeCount : (modOrder n f s).freeCount = s.freeCount := rfl
@[simp] theorem modOrder_clock : (modOrder n f s).clock = s.clock := rfl
@[simp] theorem modOrder_requests : (modOrder n f s).requests = s.requests := rfl
@[simp] theorem modOrder_notices : (modOrder n f s).notices = s.notices := rfl
@[simp] theorem modOrder_noticeOverflow : (modOrder n f s).noticeOverflow = s.noticeOverflow := rfl
@[simp] theorem modOrder_limits : (modOrder n f s).limits = s.limits := rfl
@[simp] theorem modOrder_gains : (modOrder n f s).gains = s.gains := rfl
@[simp] theorem modOrder_log : (modOrder n f s).log = s.log := rfl
@[simp] theorem modOrder_ports : (modOrder n f s).ports = s.ports := rfl
@[simp] theorem modOrder_sources : (modOrder n f s).sources = s.sources := rfl
@[simp] theorem modOrder_lastUnknown : (modOrder n f s).lastUnknown = s.lastUnknown := rfl
@[simp] theorem modOrder_hearing : (modOrder n f s).hearing = s.hearing := rfl
@[simp] theorem modOrder_guideFrozen : (modOrder n f s).guideFrozen = s.guideFrozen := rfl
@[simp] theorem modOrder_tours : (modOrder n f s).tours = s.tours := rfl
@[simp] theorem modOrder_programs : (modOrder n f s).programs = s.programs := rfl
@[simp] theorem modOrder_zones : (modOrder n f s).zones = s.zones := rfl
@[simp] theorem modOrder_announcements : (modOrder n f s).announcements = s.announcements := rfl
@[simp] theorem modOrder_galleries : (modOrder n f s).galleries = s.galleries := rfl
@[simp] theorem modOrder_receivers : (modOrder n f s).receivers = s.receivers := rfl
@[simp] theorem modOrder_pool : (modOrder n f s).pool = s.pool := rfl
@[simp] theorem modOrder_outfits :
    (modOrder n f s).outfits = s.outfits.map fun o => if o.number = n then f o else o := rfl
@[simp] theorem modOrder_nextOrder : (modOrder n f s).nextOrder = s.nextOrder := rfl
@[simp] theorem modOrder_racks : (modOrder n f s).racks = s.racks := rfl
@[simp] theorem modOrder_pending : (modOrder n f s).pending = s.pending := rfl
end

/-! ### queueNotice: nothing else changes -/

section
variable (k : NoticeKind) (a b : Option (BitVec 16)) (d : BitVec 16)
@[simp] theorem queueNotice_phase : (queueNotice k a b d s).phase = s.phase := by
  unfold queueNotice; split; rfl; split <;> rfl
@[simp] theorem queueNotice_memory : (queueNotice k a b d s).memory = s.memory := by
  unfold queueNotice; split; rfl; split <;> rfl
@[simp] theorem queueNotice_configStatus : (queueNotice k a b d s).configStatus = s.configStatus := by
  unfold queueNotice; split; rfl; split <;> rfl
@[simp] theorem queueNotice_saving : (queueNotice k a b d s).saving = s.saving := by
  unfold queueNotice; split; rfl; split <;> rfl
@[simp] theorem queueNotice_freeCount : (queueNotice k a b d s).freeCount = s.freeCount := by
  unfold queueNotice; split; rfl; split <;> rfl
@[simp] theorem queueNotice_clock : (queueNotice k a b d s).clock = s.clock := by
  unfold queueNotice; split; rfl; split <;> rfl
@[simp] theorem queueNotice_requests : (queueNotice k a b d s).requests = s.requests := by
  unfold queueNotice; split; rfl; split <;> rfl
@[simp] theorem queueNotice_limits : (queueNotice k a b d s).limits = s.limits := by
  unfold queueNotice; split; rfl; split <;> rfl
@[simp] theorem queueNotice_gains : (queueNotice k a b d s).gains = s.gains := by
  unfold queueNotice; split; rfl; split <;> rfl
@[simp] theorem queueNotice_log : (queueNotice k a b d s).log = s.log := by
  unfold queueNotice; split; rfl; split <;> rfl
@[simp] theorem queueNotice_ports : (queueNotice k a b d s).ports = s.ports := by
  unfold queueNotice; split; rfl; split <;> rfl
@[simp] theorem queueNotice_sources : (queueNotice k a b d s).sources = s.sources := by
  unfold queueNotice; split; rfl; split <;> rfl
@[simp] theorem queueNotice_lastUnknown : (queueNotice k a b d s).lastUnknown = s.lastUnknown := by
  unfold queueNotice; split; rfl; split <;> rfl
@[simp] theorem queueNotice_hearing : (queueNotice k a b d s).hearing = s.hearing := by
  unfold queueNotice; split; rfl; split <;> rfl
@[simp] theorem queueNotice_guideFrozen : (queueNotice k a b d s).guideFrozen = s.guideFrozen := by
  unfold queueNotice; split; rfl; split <;> rfl
@[simp] theorem queueNotice_tours : (queueNotice k a b d s).tours = s.tours := by
  unfold queueNotice; split; rfl; split <;> rfl
@[simp] theorem queueNotice_programs : (queueNotice k a b d s).programs = s.programs := by
  unfold queueNotice; split; rfl; split <;> rfl
@[simp] theorem queueNotice_zones : (queueNotice k a b d s).zones = s.zones := by
  unfold queueNotice; split; rfl; split <;> rfl
@[simp] theorem queueNotice_announcements : (queueNotice k a b d s).announcements = s.announcements := by
  unfold queueNotice; split; rfl; split <;> rfl
@[simp] theorem queueNotice_galleries : (queueNotice k a b d s).galleries = s.galleries := by
  unfold queueNotice; split; rfl; split <;> rfl
@[simp] theorem queueNotice_receivers : (queueNotice k a b d s).receivers = s.receivers := by
  unfold queueNotice; split; rfl; split <;> rfl
@[simp] theorem queueNotice_pool : (queueNotice k a b d s).pool = s.pool := by
  unfold queueNotice; split; rfl; split <;> rfl
@[simp] theorem queueNotice_outfits : (queueNotice k a b d s).outfits = s.outfits := by
  unfold queueNotice; split; rfl; split <;> rfl
@[simp] theorem queueNotice_nextOrder : (queueNotice k a b d s).nextOrder = s.nextOrder := by
  unfold queueNotice; split; rfl; split <;> rfl
@[simp] theorem queueNotice_racks : (queueNotice k a b d s).racks = s.racks := by
  unfold queueNotice; split; rfl; split <;> rfl
@[simp] theorem queueNotice_pending : (queueNotice k a b d s).pending = s.pending := by
  unfold queueNotice; split; rfl; split <;> rfl
end

/-! ### recordDrop: nothing else changes -/

section
variable (p : PortNo) (f : TxFrame)
@[simp] theorem recordDrop_phase : (recordDrop p f s).phase = s.phase := by
  unfold recordDrop; split <;> simp
@[simp] theorem recordDrop_memory : (recordDrop p f s).memory = s.memory := by
  unfold recordDrop; split <;> simp
@[simp] theorem recordDrop_configStatus : (recordDrop p f s).configStatus = s.configStatus := by
  unfold recordDrop; split <;> simp
@[simp] theorem recordDrop_saving : (recordDrop p f s).saving = s.saving := by
  unfold recordDrop; split <;> simp
@[simp] theorem recordDrop_freeCount : (recordDrop p f s).freeCount = s.freeCount := by
  unfold recordDrop; split <;> simp
@[simp] theorem recordDrop_clock : (recordDrop p f s).clock = s.clock := by
  unfold recordDrop; split <;> simp
@[simp] theorem recordDrop_requests : (recordDrop p f s).requests = s.requests := by
  unfold recordDrop; split <;> simp
@[simp] theorem recordDrop_limits : (recordDrop p f s).limits = s.limits := by
  unfold recordDrop; split <;> simp
@[simp] theorem recordDrop_gains : (recordDrop p f s).gains = s.gains := by
  unfold recordDrop; split <;> simp
@[simp] theorem recordDrop_ports : (recordDrop p f s).ports = s.ports := by
  unfold recordDrop; split <;> simp
@[simp] theorem recordDrop_sources : (recordDrop p f s).sources = s.sources := by
  unfold recordDrop; split <;> simp
@[simp] theorem recordDrop_lastUnknown : (recordDrop p f s).lastUnknown = s.lastUnknown := by
  unfold recordDrop; split <;> simp
@[simp] theorem recordDrop_hearing : (recordDrop p f s).hearing = s.hearing := by
  unfold recordDrop; split <;> simp
@[simp] theorem recordDrop_guideFrozen : (recordDrop p f s).guideFrozen = s.guideFrozen := by
  unfold recordDrop; split <;> simp
@[simp] theorem recordDrop_tours : (recordDrop p f s).tours = s.tours := by
  unfold recordDrop; split <;> simp
@[simp] theorem recordDrop_programs : (recordDrop p f s).programs = s.programs := by
  unfold recordDrop; split <;> simp
@[simp] theorem recordDrop_zones : (recordDrop p f s).zones = s.zones := by
  unfold recordDrop; split <;> simp
@[simp] theorem recordDrop_announcements : (recordDrop p f s).announcements = s.announcements := by
  unfold recordDrop; split <;> simp
@[simp] theorem recordDrop_galleries : (recordDrop p f s).galleries = s.galleries := by
  unfold recordDrop; split <;> simp
@[simp] theorem recordDrop_receivers : (recordDrop p f s).receivers = s.receivers := by
  unfold recordDrop; split <;> simp
@[simp] theorem recordDrop_pool : (recordDrop p f s).pool = s.pool := by
  unfold recordDrop; split <;> simp
@[simp] theorem recordDrop_outfits : (recordDrop p f s).outfits = s.outfits := by
  unfold recordDrop; split <;> simp
@[simp] theorem recordDrop_nextOrder : (recordDrop p f s).nextOrder = s.nextOrder := by
  unfold recordDrop; split <;> simp
@[simp] theorem recordDrop_racks : (recordDrop p f s).racks = s.racks := by
  unfold recordDrop; split <;> simp
@[simp] theorem recordDrop_pending : (recordDrop p f s).pending = s.pending := by
  unfold recordDrop; split <;> simp
end

/-! ### startLine: nothing else changes -/

section
variable (p : PortNo)
@[simp] theorem startLine_phase : (startLine p s).phase = s.phase := by
  unfold startLine; split <;> rfl
@[simp] theorem startLine_memory : (startLine p s).memory = s.memory := by
  unfold startLine; split <;> rfl
@[simp] theorem startLine_configStatus : (startLine p s).configStatus = s.configStatus := by
  unfold startLine; split <;> rfl
@[simp] theorem startLine_saving : (startLine p s).saving = s.saving := by
  unfold startLine; split <;> rfl
@[simp] theorem startLine_freeCount : (startLine p s).freeCount = s.freeCount := by
  unfold startLine; split <;> rfl
@[simp] theorem startLine_clock : (startLine p s).clock = s.clock := by
  unfold startLine; split <;> rfl
@[simp] theorem startLine_requests : (startLine p s).requests = s.requests := by
  unfold startLine; split <;> rfl
@[simp] theorem startLine_notices : (startLine p s).notices = s.notices := by
  unfold startLine; split <;> rfl
@[simp] theorem startLine_noticeOverflow : (startLine p s).noticeOverflow = s.noticeOverflow := by
  unfold startLine; split <;> rfl
@[simp] theorem startLine_limits : (startLine p s).limits = s.limits := by
  unfold startLine; split <;> rfl
@[simp] theorem startLine_gains : (startLine p s).gains = s.gains := by
  unfold startLine; split <;> rfl
@[simp] theorem startLine_log : (startLine p s).log = s.log := by
  unfold startLine; split <;> rfl
@[simp] theorem startLine_sources : (startLine p s).sources = s.sources := by
  unfold startLine; split <;> rfl
@[simp] theorem startLine_lastUnknown : (startLine p s).lastUnknown = s.lastUnknown := by
  unfold startLine; split <;> rfl
@[simp] theorem startLine_hearing : (startLine p s).hearing = s.hearing := by
  unfold startLine; split <;> rfl
@[simp] theorem startLine_guideFrozen : (startLine p s).guideFrozen = s.guideFrozen := by
  unfold startLine; split <;> rfl
@[simp] theorem startLine_tours : (startLine p s).tours = s.tours := by
  unfold startLine; split <;> rfl
@[simp] theorem startLine_programs : (startLine p s).programs = s.programs := by
  unfold startLine; split <;> rfl
@[simp] theorem startLine_zones : (startLine p s).zones = s.zones := by
  unfold startLine; split <;> rfl
@[simp] theorem startLine_announcements : (startLine p s).announcements = s.announcements := by
  unfold startLine; split <;> rfl
@[simp] theorem startLine_galleries : (startLine p s).galleries = s.galleries := by
  unfold startLine; split <;> rfl
@[simp] theorem startLine_receivers : (startLine p s).receivers = s.receivers := by
  unfold startLine; split <;> rfl
@[simp] theorem startLine_pool : (startLine p s).pool = s.pool := by
  unfold startLine; split <;> rfl
@[simp] theorem startLine_outfits : (startLine p s).outfits = s.outfits := by
  unfold startLine; split <;> rfl
@[simp] theorem startLine_nextOrder : (startLine p s).nextOrder = s.nextOrder := by
  unfold startLine; split <;> rfl
@[simp] theorem startLine_racks : (startLine p s).racks = s.racks := by
  unfold startLine; split <;> rfl
@[simp] theorem startLine_pending : (startLine p s).pending = s.pending := by
  unfold startLine; split <;> rfl
end

/-! ### handFrame: nothing else changes -/

section
variable (p : PortNo) (f : TxFrame)
@[simp] theorem handFrame_phase : (handFrame p f s).phase = s.phase := by
  unfold handFrame; split <;> simp
@[simp] theorem handFrame_memory : (handFrame p f s).memory = s.memory := by
  unfold handFrame; split <;> simp
@[simp] theorem handFrame_configStatus : (handFrame p f s).configStatus = s.configStatus := by
  unfold handFrame; split <;> simp
@[simp] theorem handFrame_saving : (handFrame p f s).saving = s.saving := by
  unfold handFrame; split <;> simp
@[simp] theorem handFrame_freeCount : (handFrame p f s).freeCount = s.freeCount := by
  unfold handFrame; split <;> simp
@[simp] theorem handFrame_clock : (handFrame p f s).clock = s.clock := by
  unfold handFrame; split <;> simp
@[simp] theorem handFrame_requests : (handFrame p f s).requests = s.requests := by
  unfold handFrame; split <;> simp
@[simp] theorem handFrame_limits : (handFrame p f s).limits = s.limits := by
  unfold handFrame; split <;> simp
@[simp] theorem handFrame_gains : (handFrame p f s).gains = s.gains := by
  unfold handFrame; split <;> simp
@[simp] theorem handFrame_sources : (handFrame p f s).sources = s.sources := by
  unfold handFrame; split <;> simp
@[simp] theorem handFrame_lastUnknown : (handFrame p f s).lastUnknown = s.lastUnknown := by
  unfold handFrame; split <;> simp
@[simp] theorem handFrame_hearing : (handFrame p f s).hearing = s.hearing := by
  unfold handFrame; split <;> simp
@[simp] theorem handFrame_guideFrozen : (handFrame p f s).guideFrozen = s.guideFrozen := by
  unfold handFrame; split <;> simp
@[simp] theorem handFrame_tours : (handFrame p f s).tours = s.tours := by
  unfold handFrame; split <;> simp
@[simp] theorem handFrame_programs : (handFrame p f s).programs = s.programs := by
  unfold handFrame; split <;> simp
@[simp] theorem handFrame_zones : (handFrame p f s).zones = s.zones := by
  unfold handFrame; split <;> simp
@[simp] theorem handFrame_announcements : (handFrame p f s).announcements = s.announcements := by
  unfold handFrame; split <;> simp
@[simp] theorem handFrame_galleries : (handFrame p f s).galleries = s.galleries := by
  unfold handFrame; split <;> simp
@[simp] theorem handFrame_receivers : (handFrame p f s).receivers = s.receivers := by
  unfold handFrame; split <;> simp
@[simp] theorem handFrame_pool : (handFrame p f s).pool = s.pool := by
  unfold handFrame; split <;> simp
@[simp] theorem handFrame_outfits : (handFrame p f s).outfits = s.outfits := by
  unfold handFrame; split <;> simp
@[simp] theorem handFrame_nextOrder : (handFrame p f s).nextOrder = s.nextOrder := by
  unfold handFrame; split <;> simp
@[simp] theorem handFrame_racks : (handFrame p f s).racks = s.racks := by
  unfold handFrame; split <;> simp
@[simp] theorem handFrame_pending : (handFrame p f s).pending = s.pending := by
  unfold handFrame; split <;> simp
end

/-! ### What the shared operations do -/

/-- A notice whose kind is disabled changes nothing (R163). -/
theorem queueNotice_disabled {k : NoticeKind} {a b : Option (BitVec 16)} {d : BitVec 16}
    (h : s.limits.enabled k = false) : queueNotice k a b d s = s := by simp [queueNotice, h]

/-- A notice for which there is no room sets the overflow flag (R163). -/
theorem queueNotice_full {k : NoticeKind} {a b : Option (BitVec 16)} {d : BitVec 16}
    (h : s.limits.enabled k = true) (hl : 16 ≤ s.notices.length) :
    queueNotice k a b d s = { s with noticeOverflow := true } := by
  simp [queueNotice, h, Config.noticeDepth, hl]

/-- A notice with room is appended (R163). -/
theorem queueNotice_room {k : NoticeKind} {a b : Option (BitVec 16)} {d : BitVec 16}
    (h : s.limits.enabled k = true) (hl : s.notices.length < 16) :
    queueNotice k a b d s = { s with notices := s.notices ++ [⟨k, s.clock, a, b, d⟩] } := by
  simp [queueNotice, h, Config.noticeDepth, Nat.not_le.mpr hl]

/-- A drop while the log is valid is counted (R173). -/
theorem recordDrop_counted {p : PortNo} {f : TxFrame} {x : Drop} (h : s.log.captured = some x) :
    recordDrop p f s = { s with log := ⟨some x, min 65535 (s.log.count + 1)⟩ } := by
  simp [recordDrop, h]

/-- The first drop is captured, with a DELIVERY_ERROR notice (R173). -/
theorem recordDrop_captured {p : PortNo} {f : TxFrame} (h : s.log.captured = none) :
    recordDrop p f s = queueNotice .deliveryError (subjectOf p.val) f.subject
      (f.kindCode.setWidth 16) { s with log := ⟨some ⟨p, f.kindCode, f.subject, s.clock⟩, 1⟩ } := by
  simp [recordDrop, h]

/-- A frame handed to a port that is DOWN or has no room is dropped (R171). -/
theorem handFrame_dropped {p : PortNo} {f : TxFrame}
    (h : ¬ (s.ports[p].link = .up ∧ roomFor s.ports[p].queue f = true)) :
    handFrame p f s = recordDrop p f s := by simp only [handFrame, if_neg h]

/-- A frame handed to a port that is UP and has room is appended, and a free line takes the arbiter's
choice (R171, R172). -/
theorem handFrame_taken {p : PortNo} {f : TxFrame} (h : s.ports[p].link = .up)
    (hr : roomFor s.ports[p].queue f = true) :
    handFrame p f s = startLine p (s.modPort p fun e => { e with queue := e.queue ++ [f] }) := by
  simp only [handFrame, if_pos (And.intro h hr)]

/-- A port whose line is busy appends the frame and no more (R171). -/
theorem handFrame_busy {p : PortNo} {f x : TxFrame} (h : s.ports[p].link = .up)
    (hr : roomFor s.ports[p].queue f = true) (hx : s.ports[p].line = some x) :
    handFrame p f s = s.modPort p fun e => { e with queue := e.queue ++ [f] } := by
  rw [handFrame_taken s h hr, startLine]
  simp only [State.modPort, Fin.getElem_fin, Vector.getElem_set_self] at hx ⊢
  rw [hx]

/-- An event of the running hub is its effect. -/
@[simp] theorem running_of_running {f : State → State} (h : s.phase = .running) :
    s.running f = .next (f s) := by simp [State.running, h]

/-- Before the load completes and without power it is no event. -/
@[simp] theorem running_of_not {f : State → State} (h : s.phase ≠ .running) :
    s.running f = .next s := by simp [State.running, h]

end Sys2Proof.Machine
end

