-- ==== Sys2Proof/Laws/Writes.lean ====
section
/-! SUPPORT. The writes of the configuration (WRITE_ENTRY, COND_WRITE) keep what every change of the running
hub keeps: `AllKeep`, as `Keeps` with the changes of roles, limits, gains and zones. -/

namespace Sys2Proof.Laws

open Sys2Proof.Machine

namespace Keeps

variable {P : State → Prop} (h : Keeps P)
include h

theorem renameSource (i) (s : State) (hs : P s) : P (renameSource i s) := by
  unfold Machine.renameSource
  have h1 := h.source _ i (fun r =>
    { r with lostDeadline := none, state := if r.id.isSome then .idle else .unused }) id
    (h.emptyStore i s hs)
  exact h.handOnWritten _ _ (h.forgetGuide _ _ h1)

theorem writeSource (i l) (s : State) (hs : P s) : P (writeSource i l s) := by
  unfold Machine.writeSource
  have h1 := h.source s i (fun r =>
    { r with
      id := idAfter s.sources[i] l
      role := roleAfter s.sources[i] l
      gainStep := (valueFor l 3).elim r.gainStep (Fin.ofNat 16)
      mute := (valueFor l 4).elim r.mute (· == 1) }) id hs
  have h2 := ite_keeps (c := idAfter s.sources[i] l = s.sources[i].id) h1 (h.renameSource i _ h1)
  exact h.source _ i (fun r => { r with generation := r.generation + 1 }) id
    (ite_keeps (h.forgetGuide _ _ h2) h2)

theorem writeTour (t l) (s : State) (hs : P s) : P (writeTour t l s) := by
  unfold Machine.writeTour
  exact h.rerank _ _ (h.tour s t (fun r =>
    { r with priority := (valueFor l 3).elim r.priority (Fin.ofNat 4)
             generation := r.generation + 1 }) id hs)

theorem writeProgram (t l) (s : State) (hs : P s) : P (writeProgram t l s) :=
  forEach_keeps _ h.derive _ (h.program _ _ _ hs)

theorem writeRack (t l) (s : State) (hs : P s) : P (writeRack t l s) :=
  h.applyGrantLimit _ _ (h.rack _ _ _ hs)

end Keeps

/-- Kept as well by the changes that only a write of the configuration makes. -/
structure AllKeep (P : State → Prop) : Prop extends Keeps P where
  role : ∀ (s : State) p r, P s → P (s.modPort p fun e => { e with role := r })
  gen : ∀ (s : State) p, P s → P (s.modPort p fun e => { e with generation := e.generation + 1 })
  limits : ∀ (s : State) l, P s → P { s with limits := l }
  gains : ∀ (s : State) l, P s → P { s with gains := l }
  zones : ∀ (s : State) l, P s → P { s with zones := l }

namespace AllKeep

variable {P : State → Prop} (h : AllKeep P)
include h

theorem placeNoticePort (s : State) (hs : P s) : P (placeNoticePort s) := by
  unfold Machine.placeNoticePort
  refine ite_keeps hs ?_
  split
  · exact hs
  · exact h.limits _ _ hs

theorem changeRole (p r) (s : State) (hs : P s) : P (changeRole p r s) := by
  unfold Machine.changeRole; dsimp only
  refine ite_keeps hs ?_
  have h1 := h.role s p r hs
  have h2 := h.placeNoticePort _ (ite_keeps (c := (s.ports[p].link == LinkState.up) = true)
    (h.leaveRole p s.ports[p].role _ h1) h1)
  exact ite_keeps (h.takeRole p r _ h2) h2

theorem writeGain (t l) (s : State) (hs : P s) : P (writeGain t l s) := h.gains _ _ hs

theorem writeZone (t l) (s : State) (hs : P s) : P (writeZone t l s) :=
  h.chooseAllOverlays _ (h.zones _ _ hs)

theorem writePort (t l) (s : State) (hs : P s) : P (writePort t l s) :=
  h.sendKeys _ (h.changeRole _ _ _ (h.gen _ _ hs))

theorem writeLimits (l) (s : State) (hs : P s) : P (writeLimits l s) :=
  forEach_keeps _ h.chargeSort _ (h.limits _ _ hs)

omit h in
theorem elim_keeps {α : Type} (o : Option α) {s : State} {f : α → State} (hs : P s)
    (hf : ∀ x, P (f x)) : P (o.elim s f) := by
  cases o with
  | none => exact hs
  | some x => exact hf x

theorem applyWrite (t n l) (s : State) (hs : P s) : P (applyWrite t n l s) := by
  cases t
  case source => exact elim_keeps _ hs fun x => h.writeSource x l s hs
  case tour => exact elim_keeps _ hs fun x => h.writeTour x l s hs
  case program => exact elim_keeps _ hs fun x => h.writeProgram x l s hs
  case gain => exact elim_keeps _ hs fun x => h.writeGain x l s hs
  case zone => exact elim_keeps _ hs fun x => h.writeZone x l s hs
  case port => exact elim_keeps _ hs fun x => h.writePort x l s hs
  case limits => exact h.writeLimits _ _ hs
  case receiver => exact hs
  case rack => exact elim_keeps _ hs fun x => h.writeRack x l s hs

theorem advancePort (p) (s : State) (hs : P s) : P (advancePort p s) := h.gen _ _ hs

theorem takeWrite (a t q) (s : State) (hs : P s) :
    P (takeWrite a t q s).state ∧ ∀ v, P v → P ((takeWrite a t q s).after v) := by
  unfold Machine.takeWrite; split
  · exact Keeps.done_keeps (entryResult (Machine.applyWrite t q.index q.items s) t q.index) _
      (h.applyWrite t q.index q.items s hs)
  · next r _ =>
    refine ⟨h.advancePort a s hs, fun v hv => ?_⟩
    dsimp only
    exact h.sendKeys _ (h.changeRole a r v hv)

omit h in
theorem carrying (x : Served) (r) (hx : P x.state ∧ ∀ v, P v → P (x.after v)) :
    P (x.carrying r).state ∧ ∀ v, P v → P ((x.carrying r).after v) := hx

theorem serveWrite (a b) (s : State) (hs : P s) :
    P (serveWrite a b s).state ∧ ∀ v, P v → P ((serveWrite a b s).after v) := by
  unfold Machine.serveWrite; split
  · exact Keeps.refuse_keeps _ _ hs
  · unfold Machine.writeEntry
    repeat' first
      | exact Keeps.refuse_keeps _ _ hs
      | exact h.takeWrite _ _ _ _ hs
      | split

theorem serveCond (a b) (s : State) (hs : P s) :
    P (serveCond a b s).state ∧ ∀ v, P v → P ((serveCond a b s).after v) := by
  unfold Machine.serveCond; split
  · exact Keeps.refuse_keeps _ _ hs
  · unfold Machine.condWrite; dsimp only
    repeat' first
      | exact Keeps.refuse_keeps _ _ hs
      | exact carrying _ _ (Keeps.refuse_keeps _ _ hs)
      | exact carrying _ _ (h.takeWrite _ _ _ _ hs)
      | split

/-- WRITE_ENTRY and COND_WRITE keep what every change of the running hub keeps. -/
theorem writes (s t : State) (hs : P s) :
    (Machine.exec .writeEntry s = .next t → P t) ∧ (Machine.exec .condWrite s = .next t → P t) :=
  ⟨h.serveHead _ _ s t h.serveWrite hs, h.serveHead _ _ s t h.serveCond hs⟩

end AllKeep

end Sys2Proof.Laws
end

