-- ==== Sys2Proof/Tests/Slice0.lean ====
section
/-! SUPPORT. Tests: ill-formed commands that `wellFormed` refuses, small examples with results taken from
the spec, and, for every statement with hypotheses, a state and operands that meet them, clause by clause. -/

open Sys2Proof Sys2Proof.Machine

namespace Sys2Proof.Tests

/-! ### Ill-formed commands -/

/-- A frame of kind 04h with a given report kind. -/
def report (kind : Nat) : List Byte := reportFrame kind 3 77 50

theorem test_wellFormed_refuses_other_frame_kinds :
    (Instr.voiceFrame 1 (report 1)).wellFormed = false ∧
      (Instr.controlRequest 0 (report 1)).wellFormed = false ∧
      (Instr.dock 2 (envelope 0x01 [1, 0, 0, 0, 0, 0])).wellFormed = false := by decide +kernel

theorem test_wellFormed_refuses_other_report_kinds :
    (Instr.dock 2 (report 2)).wellFormed = false ∧ (Instr.undock 2 (report 3)).wellFormed = false ∧
      (Instr.battery 2 (report 4)).wellFormed = false ∧
      (Instr.chargeDone 2 (report 5)).wellFormed = false ∧
      (Instr.keyDone 2 (report 6)).wellFormed = false ∧
      (Instr.keyFail 2 (report 7)).wellFormed = false ∧
      (Instr.slotFault 2 (report 8)).wellFormed = false ∧
      (Instr.inventoryEnd 2 (report 1)).wellFormed = false := by decide +kernel

theorem test_wellFormed_refuses_short_readBack :
    (Instr.configSaveComplete [0, 1]).wellFormed = false := by decide +kernel

theorem test_wellFormed_takes_a_dock : (Instr.dock 2 (report 1)).wellFormed = true := by decide +kernel

/-! ### Examples of the spec -/

/-- 11.2: the frame check of the nine characters "123456789" is 29B1h. -/
theorem test_frameCheck :
    frameCheck [0x31, 0x32, 0x33, 0x34, 0x35, 0x36, 0x37, 0x38, 0x39] = 0x29B1 := by decide +kernel

/-- The examples under R50. -/
theorem test_roundedShift :
    roundedShift 8192 = 1 ∧ roundedShift (-8192) = 0 ∧ roundedShift 24576 = 2 ∧
      roundedShift (-24576) = -1 ∧ roundedShift (-31164000) = -1902 := by decide +kernel

/-- The wrap of the sequence: 2 follows 250 at the distance 8, and 250 is then late (R4). -/
theorem test_classify_wraps :
    classify { Source.initial with newest := some 250 } 2 = .accepted ∧
      classify { Source.initial with newest := some 2 } 250 = .late := by decide +kernel

/-- Table 1-3: the most and the least of U8. -/
theorem test_convertU8 : (convertU8 0).toInt = -32768 ∧ (convertU8 255).toInt = 32512 := by
  decide +kernel

/-- R174: a clock value just before the wrap is earlier than one just after it. -/
theorem test_earlier_wraps : earlier 0xFFFFFFF0 5 = true ∧ earlier 5 0xFFFFFFF0 = false := by
  decide +kernel

/-- No word spells a command: the table gives no bits. -/
theorem test_no_words (n w : Nat) : decodeTableWord n w = none := rfl

/-! ### The states of the witnesses -/

/-- A source with an id and a role, LIVE since sequence 5 with a lost deadline at 900. -/
def liveSource (id : BitVec 16) (role : SourceRole) : Source :=
  { Source.initial with
    id := some id, role := role, state := .live, newest := some 5, lostDeadline := some 900
    store := [⟨5, zeroBlock, 700⟩] }

/-- A port that is UP. -/
def upPort (role : PortRole) : Port := { Port.initial 1 with role := role, link := .up }

/-- A running hub at clock 900 with one UP port of each role (L0 DESK, L1 GALLERY, L2 RACK, L3 UNUSED)
and one DOWN port of each (L4 GALLERY, L5 RACK, L6 DESK, the rest UNUSED); slots 0 to 2 LIVE. -/
def demo : State :=
  { State.reset with
    phase := .running, clock := 900
    ports := ((((((State.reset.ports.set 0 (upPort .desk)).set 1 (upPort .gallery)).set 2
      (upPort .rack)).set 3 (upPort .unused)).set 4 ⟨.gallery, .down, [], none, 0⟩).set 5
      ⟨.rack, .down, [], none, 0⟩).set 6 ⟨.desk, .down, [], none, 0⟩
    sources := ((State.reset.sources.set 0 (liveSource 1 .guide)).set 1
      (liveSource 65534 .interpreter)).set 2 (liveSource 3 .announcer) }

/-- A notice. -/
def someNotice : Notice := ⟨.clip, 1, some 2, some 0, 7⟩

/-- `demo` with this request at the head of its queue. -/
def asked (kind : Nat) (operands : List Byte) : State :=
  { demo with requests := [⟨0, requestPayload 7 kind operands⟩] }

/-- A receiver docked in slot 3 of L2. -/
def docked (state : RecState) (program : Option ProgNo) : ReceiverData :=
  { id := 77, state := state, place := some (2, 3), dockStamp := some 800, battery := 40
    charging := false, keyedProgram := program, outfit := none, issueStamp := none
    loanDeadline := none, unconfirmed := false }

/-- The rack on L2 online, with record 5 in its slot 3. -/
def racked (d : ReceiverData) : State :=
  { demo with
    receivers := demo.receivers.set 5 ⟨some d, 1⟩
    racks := demo.racks.set 2 { Rack.initial with
      online := true, slots := Rack.initial.slots.set 3 ⟨.receiver 5, false⟩ } }

/-- Of its records, 5 alone is in use. -/
theorem racked_data (d : ReceiverData) (q : RecNo) :
    (racked d).receivers[q].data = if q = 5 then some d else none := by
  simp only [racked, demo, State.reset, Fin.getElem_fin, Vector.getElem_set, Fin.ext_iff]
  by_cases h : (5 : Nat) = q.val
  · simp [← h]
  · simp [h, Ne.symm h]

/-- The same rack with an order in flight. -/
def flying (d : ReceiverData) (o : KeyOrder) : State :=
  (racked d).modRack 2 fun e => { e with keyQueue := [o], inFlight := true, keyDeadline := some 900 }

/-- An announcement of slot 2. -/
def announcement (state : AnnState) : Announcement :=
  { slot := 2, zones := 1, priority := 3, levelStep := 12, duckStep := 4, duration := 600, state := state
    startStamp := none, endDeadline := some 900, pendingDeadline := some 900 }

/-- A hub that is saving. -/
def saver : State := { demo with saving := some (List.replicate 436 1) }

/-- A hub whose memory holds the image of the defaults, and which is loading. -/
def loader : State := { State.reset with memory := Memory.writeAll [] 0 (imageOf State.reset) }

/-! ### Witnesses: queue, invariants, power, load and save -/

theorem witness_ClockAndItsDeadlines : demo.phase = .running ∧ demo.pending = [] ∧
    demo.requests = [] ∧ noticeReady demo = false := by decide +kernel

theorem witness_EveryStepKeepsTheMemoryForm :
    MemoryOk State.reset ∧ ∃ t, step State.reset = .next t :=
  ⟨⟨by decide +kernel, by intro i h; cases h⟩, _, rfl⟩

theorem witness_EveryStepKeepsTheBoundsAndTheNoticePort :
    QueuesOk demo ∧ TablesOk demo ∧ NoticePortOk demo ∧ ∃ t, step demo = .next t :=
  ⟨by unfold QueuesOk; decide +kernel, by unfold TablesOk; decide +kernel,
    by unfold NoticePortOk; decide +kernel, _, rfl⟩

theorem witness_OnlyWritesLoadAndPowerTouchTheSettings :
    (∃ t, exec .noticeSend demo = .next t) ∧ Instr.noticeSend ≠ .writeEntry ∧
      Instr.noticeSend ≠ .condWrite ∧ Instr.noticeSend ≠ .powerOn ∧
      (∀ stage offset, Instr.noticeSend ≠ .powerLoss stage offset) ∧
      Instr.noticeSend ≠ .configLoadComplete ∧
      (∃ t, exec (.ackTimeout .marker 0) saver = .next t) ∧ saver.phase ≠ .loading :=
  ⟨⟨_, rfl⟩, by decide, by decide, by decide, (by intro s o h; cases h), by decide, ⟨_, rfl⟩, by decide +kernel⟩

theorem witness_PowerAndTheDefaults_power : demo.phase ≠ .off ∧ demo.saving = none := by decide +kernel

theorem witness_saving : MemoryOk saver ∧ saver.phase = .running ∧
    saver.saving = some (List.replicate 436 1) ∧ SaveStage.marker ≠ .finish ∧ SaveStage.sections ≠ .finish :=
  ⟨⟨by decide +kernel, by intro i h; cases h; decide +kernel⟩, rfl, rfl, by decide, by decide⟩

/-- For the first difference at offset 0 and at offset 435. -/
theorem witness_SaveEndsWithItsNotice :
    let image : List Byte := List.replicate 436 1
    let first := image.set 0 2
    let last := image.set 435 2
    first.length = 436 ∧ first.take 0 = image.take 0 ∧ first[0]? ≠ image[0]? ∧
      last.length = 436 ∧ last.take 435 = image.take 435 ∧ last[435]? ≠ image[435]? := by decide +kernel

theorem witness_PowerAndTheDefaults_load :
    State.reset.phase = .loading ∧ imageValid State.reset.memory = false := by decide +kernel

/-- The image of the defaults without its DESK port, sealed with its checksum. -/
def deskless : List Byte :=
  let bare := (imageOf State.reset).set 11 0
  bare.take 6 ++ put16 (byteSum (bare.drop 8)) ++ bare.drop 8

/-- A hub that loads `deskless`. -/
def otherLoader : State := { State.reset with memory := Memory.writeAll [] 0 deskless }

theorem test_loader_valid : imageValid loader.memory = true := by
  rw [loader, imageValid_held (imageOf State.reset) (length_imageOf _) (by decide +kernel)]
  decide +kernel

theorem test_otherLoader_valid : imageValid otherLoader.memory = true := by
  rw [otherLoader, imageValid_held deskless (by decide +kernel) (by decide +kernel)]
  decide +kernel

/-- An image with a DESK port and one without; the notice port it names is DESK, and is not. -/
theorem witness_ValidImageIsLoaded :
    (loader.phase = .loading ∧ imageValid loader.memory = true) ∧
      (otherLoader.phase = .loading ∧ imageValid otherLoader.memory = true) ∧
      byteAt (imageOf State.reset) (11 + 2 * (0 : PortNo).val) = 3 ∧
      (∀ q : PortNo, byteAt deskless (11 + 2 * q.val) ≠ 3) ∧
      byteAt (imageOf State.reset) 89 = (0 : PortNo).val :=
  ⟨⟨by simp only [loader, State.reset], test_loader_valid⟩,
    ⟨by simp only [otherLoader, State.reset], test_otherLoader_valid⟩, by decide +kernel⟩

theorem witness_SavedImageLoadsBack : SettingsInRange State.reset ∧ MemoryOk loader ∧
    loader.phase = .loading ∧ loader.memory = Memory.writeAll [] 0 (imageOf State.reset) := by
  have held : loader.memory = Memory.writeAll [] 0 (imageOf State.reset) := by simp only [loader]
  refine ⟨by unfold SettingsInRange; decide +kernel, ⟨?_, by intro i h; cases h⟩,
    by simp only [loader, State.reset], held⟩
  rw [held]
  refine Memory.writeAll_wf (imageOf State.reset) [] 0 ?_ rfl
  rw [length_imageOf]
  decide

/-! ### Witnesses: frames, notices and ports -/

/-- An audio frame. -/
def audio : TxFrame := .program 0 1 2 zeroBlock

/-- `demo` with this transmit queue and line on L0. -/
def queued (queue : List TxFrame) (line : Option TxFrame) : State :=
  demo.modPort 0 fun e => { e with queue := queue, line := line }

theorem witness_EnvelopeOpensToItsPayload :
    ([] : List Byte).length ≤ 1024 ∧ (List.replicate 1024 (7 : Byte)).length ≤ 1024 ∧
      openEnvelope (envelope 1 []) = some (1, []) := by decide +kernel

/-- Taken: the 16th frame and the 12th audio frame, the line busy, and an empty queue with a free line.
Dropped: DOWN, 16 frames, 12 audio frames; with the log valid and not. -/
theorem witness_TransmitQueueTakesDropsAndSends_handed :
    let most := List.replicate 11 audio ++ List.replicate 4 (.notice someNotice)
    let s := queued most (some audio)
    s.ports[0].link = .up ∧ s.ports[0].queue.length < 16 ∧ audioCount s.ports[0].queue < 12 ∧
      s.ports[0].line = some audio ∧
      (queued [] none).ports[0].line = none ∧ (queued [] none).ports[0].queue = [] ∧
      demo.ports[4].link = .down ∧
      16 ≤ (queued (List.replicate 16 (.notice someNotice)) none).ports[0].queue.length ∧
      audio.isAudio = true ∧ 12 ≤ audioCount (queued (List.replicate 12 audio) none).ports[0].queue ∧
      demo.log.captured = none ∧
      ({ demo with log := ⟨some ⟨1, 2, none, 3⟩, 1⟩ }).log.captured = some ⟨1, 2, none, 3⟩ := by
  decide +kernel

theorem witness_TransmitQueueTakesDropsAndSends_sent :
    let s := queued [audio, .notice someNotice, audio] (some audio)
    s.phase = .running ∧ s.ports[0].link = .up ∧ s.ports[0].line = some audio ∧
      (queued [] (some audio)).ports[0].queue = [] ∧
      s.ports[0].queue = [audio] ++ .notice someNotice :: [audio] ∧
      (∀ y ∈ [audio], y.isAudio = true) ∧ (TxFrame.notice someNotice).isAudio = false ∧
      (queued [audio, audio] (some audio)).ports[0].queue = audio :: [audio] ∧
      (∀ y ∈ [audio, audio], y.isAudio = true) := by decide +kernel

theorem witness_LinkUpActsByRole : demo.phase = .running ∧
    (demo.ports[7].link = .down ∧ demo.ports[7].role = .unused) ∧
    (demo.ports[6].link = .down ∧ demo.ports[6].role = .desk) ∧
    (demo.ports[4].link = .down ∧ demo.ports[4].role = .gallery) ∧
    (demo.ports[5].link = .down ∧ demo.ports[5].role = .rack) := by decide +kernel

/-- For LINK_DOWN of each of the four roles, in both statements about it. -/
theorem witness_LinkDown : demo.phase = .running ∧
    (demo.ports[0].link = .up ∧ demo.ports[0].role = .desk) ∧
    (demo.ports[1].link = .up ∧ demo.ports[1].role = .gallery) ∧
    (demo.ports[2].link = .up ∧ demo.ports[2].role = .rack) ∧
    (demo.ports[3].link = .up ∧ demo.ports[3].role = .unused) := by decide +kernel

theorem witness_ControlRequestQueuesOrAnswersBusy :
    PortIs demo 0 .desk ∧ 3 ≤ ([1, 2, 3] : List Byte).length ∧
      (List.replicate 1024 (7 : Byte)).length ≤ 1024 ∧
      ({ demo with requests := List.replicate 7 ⟨0, []⟩ }).requests.length < 8 ∧
      8 ≤ ({ demo with requests := List.replicate 8 ⟨0, []⟩ }).requests.length := by
  unfold PortIs; decide +kernel

theorem witness_NoticesAreQueuedAndSent_queued :
    ({ demo with limits := { demo.limits with noticeMask := 0x1FFFF } }).limits.noticeMask.getLsbD
        (NoticeKind.hubStarted.code - 1) = false ∧
      demo.limits.noticeMask.getLsbD (NoticeKind.hubStarted.code - 1) = true ∧
      ({ demo with notices := List.replicate 15 someNotice }).notices.length < 16 ∧
      16 ≤ ({ demo with notices := List.replicate 16 someNotice }).notices.length := by decide +kernel

theorem witness_NoticesAreQueuedAndSent_sent :
    let s (queue : List TxFrame) (line : Option TxFrame) : State :=
      { queued queue line with notices := [someNotice] }
    (s [] none).phase = .running ∧ (s [] none).notices = someNotice :: [] ∧
      (s [] none).limits.noticePort = 0 ∧ (s [] none).ports[0].link = .up ∧
      (s (List.replicate 15 audio) (some audio)).ports[0].queue.length < 16 ∧
      (s (List.replicate 15 audio) (some audio)).ports[0].line = some audio ∧
      (s [] none).ports[0].line = none ∧ (s [] none).ports[0].queue = [] ∧
      16 ≤ (s (List.replicate 16 audio) none).ports[0].queue.length ∧
      ({ demo with limits := { demo.limits with noticePort := 6 } }).ports[6].link = .down := by
  decide +kernel

/-! ### Witnesses: sources and frame stores -/

/-- The distances 0, 1, 127, 128 and 255, with the sequence in the store and not. -/
theorem witness_VoiceFrameIsClassified :
    let r := liveSource 1 .guide
    Source.initial.newest = none ∧ r.newest = some 5 ∧ (6 - 5 : Seq).toNat = 1 ∧
      (132 - 5 : Seq).toNat = 127 ∧ (133 - 5 : Seq).toNat = 128 ∧ (4 - 5 : Seq).toNat = 255 ∧
      (∃ e ∈ [(⟨4, zeroBlock, 0⟩ : Entry)], e.seq = 4) ∧ (∀ e ∈ r.store, e.seq ≠ 4) := by decide +kernel

/-- An entry 128 behind the new one before one, three and four that are 127 behind it, and nothing else. -/
theorem witness_FramesAreConvertedPlacedAndRemoved_placed :
    let far : Entry := ⟨4, zeroBlock, 0⟩
    let near : Entry := ⟨5, zeroBlock, 0⟩
    (List.replicate 128 (1 : Byte)).length = 128 ∧ (∀ x ∈ [far], 127 < ((132 : Seq) - x.seq).toNat) ∧
      (∀ x ∈ (List.replicate 4 near).head?, ((132 : Seq) - x.seq).toNat ≤ 127) ∧
      ([far] ++ List.replicate 3 near).length ≤ 4 ∧ ([] ++ List.replicate 4 near).length ≤ 4 ∧
      (List.replicate 3 near).length < 4 ∧ (List.replicate 4 near).length = 4 := by decide +kernel

/-- On a GALLERY and on a DESK port: the formats 0 and 4 are unknown, 1 and 3 known; no slot has id 9. -/
theorem witness_DiscardedVoiceFrameIsNotedOrHeard_noted :
    PortIs demo 1 .gallery ∧ PortIs demo 0 .desk ∧ (List.replicate 128 (1 : Byte)).length = 128 ∧
      (∀ i : SourceSlot, demo.sources[i].id ≠ some 9) ∧
      (∀ i : SourceSlot, demo.sources[i].id ≠ some 0xFFFF) := by unfold PortIs; decide +kernel

/-- `demo` with this hearing table. -/
def heard (records : List HearingRecord) : State := { demo with hearing := records }

/-- A hearing record of slot 0 on L1. -/
def hearing (est8 : Nat) (c : Comparator) : HearingRecord :=
  { slot := 0, port := 1, est8 := est8, comparator := c, inStamp := some 1
    silenceDeadline := some 900, leaveDeadline := some 900, frozen := false }

/-- The sequence itself, one 128 behind and one 1 behind; DESK, GALLERY with an interpreter, GALLERY with a guide: a
first record at level 39, an OUT record at the join threshold's edge, an IN one at the leave threshold. -/
theorem witness_DiscardedVoiceFrameIsNotedOrHeard_heard :
    HoldsId demo 1 0 ∧ demo.sources[0].newest = some 5 ∧ 128 ≤ (133 - 5 : Seq).toNat ∧
      128 ≤ (4 - 5 : Seq).toNat ∧ PortIs demo 0 .desk ∧ PortIs demo 1 .gallery ∧
      HoldsId demo 65534 1 ∧ demo.sources[1].role ≠ .guide ∧ demo.sources[0].role = .guide ∧
      hearingOf demo 0 1 = none ∧ demo.hearing.length < 96 ∧ min 127 39 < demo.limits.join ∧
      hearingOf (heard [hearing 319 .out]) 0 1 = some (hearing 319 .out) ∧
      smooth 319 (min 127 39) / 8 < demo.limits.join ∧
      hearingOf (heard [hearing 224 .inside]) 0 1 = some (hearing 224 .inside) ∧
      demo.limits.leave ≤ smooth 224 (min 127 28) / 8 := by
  unfold HoldsId PortIs; decide +kernel

/-- A guide that was LOST, on a DESK and on a GALLERY port, an interpreter that is LIVE, and an IDLE announcer with a
PENDING record. -/
theorem witness_AcceptedVoiceFrameIsTakenIn :
    let s := (((demo.modSource 0 fun r => { r with state := .lost, newest := none, store := [] }).modSource 2
      fun r => { r with state := .idle, newest := none, store := [] })).setAnnouncement 3
        (some (announcement .waiting))
    PortIs s 0 .desk ∧ HoldsId s 1 0 ∧ classify s.sources[0] 9 = .accepted ∧ s.sources[0].state = .lost ∧
      s.sources[0].role = .guide ∧ s.limits.enabled .sourceBack = true ∧ s.notices.length < 16 ∧
      PortIs s 1 .gallery ∧ s.sources[1].role ≠ .guide ∧ HoldsId s 65534 1 ∧
      classify s.sources[1] 6 = .accepted ∧ s.sources[1].state = .live ∧
      (HoldsId s 3 2 ∧ classify s.sources[2] 255 = .accepted ∧ s.sources[2].state = .idle ∧
        s.announcements[3] = some (announcement .waiting) ∧ (announcement .waiting).slot = 2) ∧
      sampleFormatOf 1 = some .s16b ∧ sampleFormatOf 2 = some .s16l ∧ sampleFormatOf 3 = some .u8 := by
  unfold PortIs HoldsId; decide +kernel

/-- A guide, an interpreter, and an announcer whose record is ON. -/
theorem witness_LostDeadlineMakesTheSourceLost :
    let s := demo.setAnnouncement 0 (some (announcement .on))
    demo.phase = .running ∧
    (s.phase = .running ∧ s.sources[2].state = .live ∧ s.due s.sources[2].lostDeadline = true ∧
      s.announcements[0] = some (announcement .on) ∧ (announcement .on).slot = 2) ∧
    (demo.sources[0].state = .live ∧ demo.due demo.sources[0].lostDeadline = true ∧
      demo.sources[0].role = .guide) ∧
    (demo.sources[1].state = .live ∧ demo.due demo.sources[1].lostDeadline = true ∧
      demo.sources[1].role ≠ .guide) ∧
    demo.limits.enabled .sourceLost = true ∧ demo.notices.length < 16 := by decide +kernel

/-! ### Witnesses: the mix engine, hearing, carriers and announcements -/

/-- Gains at the ends of their range, and accumulators below, at and above the ends of theirs. -/
theorem witness_OutputSamplesSaturate :
    (∀ g ∈ [(0 : Int), 32767], 0 ≤ g ∧ g ≤ 32767) ∧ effectiveMultiplier [32767, 32767] = 65532 ∧
      effectiveMultiplier [32767, 32767, 32767] = 65535 ∧
      accumulator [⟨Vector.replicate 64 (-32768), 16385⟩] 0 < -32768 ∧
      accumulator [⟨Vector.replicate 64 (-32768), 16384⟩] 0 = -32768 ∧
      accumulator [⟨Vector.replicate 64 32767, 16384⟩] 0 = 32767 ∧
      32767 < accumulator [⟨Vector.replicate 64 32767, 16385⟩] 0 := by decide +kernel

/-- Program 0 ACTIVE at its block deadline, at this pace. -/
def mixing (pace : Pace) : State :=
  (demo.modTour 0 fun r => { r with state := .opened, guide := some 0 }).modProgram 0 fun r =>
    { r with state := .active, pace := pace, blockDeadline := some 900, clip := true
             lead := { r.lead with cursor := some 5 } }

theorem witness_BlockDeadlineMixesOneBlock :
    (mixing .fill).phase = .running ∧ (mixing .fill).programs[0].state = .active ∧
      (mixing .fill).due (mixing .fill).programs[0].blockDeadline = true ∧
      (mixing .fill).programs[0].pace = .fill ∧ (mixing .fill).programs[0].clip = true ∧
      (mixing .following).programs[0].state = .active ∧
      (mixing .following).due (mixing .following).programs[0].blockDeadline = true ∧
      (mixing .following).programs[0].mode ≠ .linked ∧ leadSource (mixing .following) 0 = some 0 ∧
      (mixing .following).programs[0].lead.cursor = some 5 ∧
      (∀ e ∈ (mixing .following).sources[0].store, e.seq ≠ 5 + 2) ∧
      (mixing .following).programs[0].pace = .following := by decide +kernel

/-- A cursor one behind the lost block, with two entries in a row behind the gap, and with none. -/
theorem witness_BlockDeadlineMixesOneBlock_catchingUp :
    let s (store : List Entry) : State := (mixing .following).modSource 0 fun r => { r with store := store }
    let two := s [⟨7, zeroBlock, 0⟩, ⟨8, zeroBlock, 0⟩]
    two.phase = .running ∧ two.programs[0].state = .active ∧ two.due two.programs[0].blockDeadline = true ∧
      two.programs[0].pace = .following ∧ leadSource two 0 = some 0 ∧ two.programs[0].lead.cursor = some 5 ∧
      floorSource two 0 ≠ some 0 ∧ overlaySource two 0 ≠ some 0 ∧ two.sources[0].store.length ≤ 4 ∧
      (∀ j, j ≤ 2 → 1 ≤ j → ∃ e ∈ two.sources[0].store, e.seq = 5 + 1 + BitVec.ofNat 8 j) ∧
      (∀ e ∈ two.sources[0].store, e.seq ≠ 5 + 1 + BitVec.ofNat 8 (2 + 1)) ∧
      ∀ e ∈ (s [⟨8, zeroBlock, 0⟩]).sources[0].store, e.seq ≠ 5 + 1 + BitVec.ofNat 8 (0 + 1) := by decide +kernel

/-- est8 3 and 4; records that decay to either side of their threshold: OUT at join, IN and LEAVING at leave; a leave
hold of 0. -/
theorem witness_HearingDeadlinesEndRecords :
    let s (r : HearingRecord) := heard [r]
    let h : State := { heard [hearing 297 .inside] with limits := { demo.limits with leaveHoldS := 0 } }
    (∀ r ∈ [hearing 3 .out, hearing 4 .out, hearing 425 .out, hearing 426 .out, hearing 3 .inside,
        hearing 297 .inside, hearing 298 .inside, hearing 297 .leaving, hearing 298 .leaving],
      (s r).phase = .running ∧ hearingOf (s r) 0 1 = some r ∧ r.frozen = false ∧
        (s r).due r.silenceDeadline = true ∧ (s r).due r.leaveDeadline = true) ∧
      (hearing 4 .out).est8 - (hearing 4 .out).est8 / 4 = 3 ∧ 3 / 8 < demo.limits.join ∧
      (425 - 425 / 4) / 8 < demo.limits.join ∧ demo.limits.join ≤ (426 - 426 / 4) / 8 ∧
      (297 - 297 / 4) / 8 < demo.limits.leave ∧ demo.limits.leave ≤ (298 - 298 / 4) / 8 ∧
      demo.limits.leaveHoldS ≠ 0 ∧
      (h.limits.leaveHoldS = 0 ∧ hearingOf h 0 1 = some (hearing 297 .inside) ∧ h.phase = .running ∧
        h.due (hearing 297 .inside).silenceDeadline = true ∧ 223 / 8 < h.limits.leave) ∧
      servedTour (mixing .fill) 0 = some 0 ∧ (1 : PortNo) ∉ (mixing .fill).tours[0].gallerySet := by
  decide +kernel

/-- Programs that differ in class alone, in language alone, in receivers alone, and in number alone. -/
theorem witness_CarryRankOrdersPrograms :
    let s := (demo.modTour 1 fun r => { r with priority := 1 }).modProgram 8 fun r => { r with keyed := 1 }
    priorityOf s 0 < priorityOf s 4 ∧
      (priorityOf s 0 = priorityOf s 1 ∧ langOf 0 = 0 ∧ langOf 1 ≠ 0) ∧
      (priorityOf s 8 = priorityOf s 0 ∧ (langOf 8 = 0 ↔ langOf 0 = 0) ∧ receiverSum s 0 < receiverSum s 8) ∧
      (priorityOf s 1 = priorityOf s 2 ∧ (langOf 1 = 0 ↔ langOf 2 = 0) ∧ receiverSum s 1 = receiverSum s 2) := by
  decide +kernel

theorem witness_CarrierDeadlinesSendTheMap :
    let s := ((demo.modCarrier 1 0 fun _ => ⟨.settling, some 95, some 900, none⟩).modCarrier 1 7 fun _ =>
      ⟨.parked, some 3, none, some 900⟩).modGallery 1 fun e => { e with mapRefresh := some 900 }
    s.phase = .running ∧ s.galleries[1].carriers[0].state = .settling ∧
      s.galleries[1].carriers[0].program = some 95 ∧
      s.due s.galleries[1].carriers[0].settleDeadline = true ∧
      s.galleries[1].carriers[7].state = .parked ∧
      s.due s.galleries[1].carriers[7].parkDeadline = true ∧ s.due s.galleries[1].mapRefresh = true := by
  decide +kernel

theorem witness_AnnouncementDeadlinesFreeTheRecord :
    let s := (demo.setAnnouncement 0 (some (announcement .on))).setAnnouncement 3
      (some (announcement .waiting))
    s.phase = .running ∧ s.announcements[0] = some (announcement .on) ∧
      s.due (announcement .on).endDeadline = true ∧ s.announcements[3] = some (announcement .waiting) ∧
      s.due (announcement .waiting).pendingDeadline = true := by decide +kernel

/-- Two records of one priority and one start stamp apply to the base program of tour 0, the second of higher number;
to the base program of tour 1 none does. -/
theorem witness_AnnouncementDeadlinesFreeTheRecord_chosen :
    let a := { announcement .on with zones := 0x80, startStamp := some 900, pendingDeadline := none }
    let w := (mixing .fill).modTour 0 fun r => { r with gallerySet := [11] }
    let s := ({ w with zones := w.zones.set 7 ⟨0x800, 0⟩ }.setAnnouncement 1 (some a)).setAnnouncement 3 (some a)
    chosenOverlay s 0 = some 1 ∧ AppliesTo s 0 1 a ∧ AppliesTo s 0 3 a ∧ (s.clock - 900).toNat < 2 ^ 31 ∧
      RankedFirst 1 a 3 a ∧ chosenOverlay s 4 = none := by
  refine ⟨by decide +kernel, ⟨rfl, rfl, 7, ?_⟩, ⟨rfl, rfl, 7, ?_⟩, by decide +kernel,
    .inr ⟨rfl, .inr ⟨rfl, by decide⟩⟩, by decide +kernel⟩ <;> decide +kernel

/-! ### Witnesses: the receiver fleet and its racks -/

theorem witness_LoanDeadlineMakesOverdue :
    let d := { docked .issued (some 95) with place := none, issueStamp := some 0, loanDeadline := some 900 }
    let s := racked d
    s.phase = .running ∧ s.receivers[5].data = some d ∧ d.state = .issued ∧ s.due d.loanDeadline = true ∧
      d.keyedProgram = some 95 ∧ d.issueStamp = some 0 := by decide +kernel

theorem witness_KeyDeadlineResends :
    let s := flying (docked .keying (some 95)) (.key 3 95)
    s.phase = .running ∧ Flying s 2 (.key 3 95) ∧ s.due s.racks[2].keyDeadline = true ∧
      s.racks[2].attempts < s.limits.keyRetries ∧
      (∀ h : PortNo, h ≠ 2 → s.racks[h].online = true → s.racks[h].keyQueue ≠ [] →
        s.racks[h].inFlight = true) := by unfold Flying; decide +kernel

/-- The deadline of an order sent three times over, with three retries allowed; a report from a rack. -/
theorem witness_FailuresMakeFaulty_orders :
    let d := docked .keying (some 95)
    let s := (flying d (.key 3 95)).modRack 2 fun e => { e with attempts := 3 }
    Flying s 2 (.key 3 95) ∧ InSlot s 2 (KeyOrder.key 3 95).slot 5 d ∧ d.state ≠ .faulty ∧ s.phase = .running ∧
      s.due s.racks[2].keyDeadline = true ∧ s.limits.keyRetries ≤ s.racks[2].attempts ∧ PortIs s 2 .rack ∧
      (KeyOrder.key 3 95).slot ∉ s.racks[2].abandoned := by
  unfold Flying InSlot PortIs; decide +kernel

/-- A KEYED, a KEYING, a FAULTY and no receiver; an unregistered occupant is in slot 39. -/
theorem witness_FailuresMakeFaulty_slots :
    let s := (racked (docked .keyed (some 95))).modSlot 2 39 fun e => { e with occupant := .unregistered }
    PortIs s 2 .rack ∧ InSlot s 2 3 5 (docked .keyed (some 95)) ∧ (docked .keyed (some 95)).state ≠ .faulty ∧
      InSlot (racked (docked .keying (some 95))) 2 3 5 (docked .keying (some 95)) ∧
      InSlot (racked (docked .faulty none)) 2 3 5 (docked .faulty none) ∧ (docked .faulty none).state = .faulty ∧
      s.racks[2].slots[0].occupant = .empty ∧ s.racks[2].slots[39].occupant = .unregistered := by
  unfold InSlot PortIs; decide +kernel

/-- A KEY with no outfit order, one with an order that wants one more, and an UNKEY. -/
theorem witness_KeyOutcomesOfARack_success :
    let d := docked .keying (some 95)
    let e := { d with outfit := some (4 : BitVec 16) }
    let o : OutfitOrder := ⟨4, 23, 3, 1, 1, 0, 0⟩
    let s := flying d (.key 3 95)
    let u := { flying e (.key 3 95) with outfits := [o] }
    PortIs s 2 .rack ∧ 3 ∉ s.racks[2].abandoned ∧ Flying s 2 (.key 3 95) ∧ InSlot s 2 3 5 d ∧ d.state = .keying ∧
      d.keyedProgram = some 95 ∧ d.outfit = none ∧ Flying u 2 (.key 3 95) ∧ InSlot u 2 3 5 e ∧
      e.outfit = some 4 ∧ orderOf u 4 = some o ∧ o.want ≤ o.keyed + 1 ∧
      Flying (flying (docked .dockedCharging none) (.unkey 3)) 2 (.unkey 3) := by
  unfold Flying InSlot PortIs; decide +kernel

/-- Slot 3 on the abandoned list, and slot 4 with the order in flight for slot 3. -/
theorem witness_KeyOutcomesOfARack_late :
    let s := (flying (docked .keying (some 95)) (.key 3 95)).modRack 2 fun e => { e with abandoned := [3] }
    PortIs s 2 .rack ∧ 3 ∈ s.racks[2].abandoned ∧ 4 ∉ s.racks[2].abandoned ∧
      ∀ o, Flying s 2 o → o.slot ≠ 4 :=
  ⟨by unfold PortIs; decide +kernel, by decide +kernel, by decide +kernel, by
    intro o h
    have : some (KeyOrder.key 3 95) = some o := h.2
    cases this; decide⟩

/-- A free record 0; every record in use; the ids 0 and 16777215; a level on either side of the threshold. -/
theorem witness_DockOfAnUnknownReceiver :
    let s := racked (docked .dockedReady none)
    let full := { s with receivers := Vector.replicate 320 ⟨some (docked .stray none), 1⟩ }
    (PortIs s 2 .rack ∧ s.racks[2].slots[0].occupant = .empty ∧ s.receivers[0].data = none ∧
      (∀ q : RecNo, q < 0 → s.receivers[q].data ≠ none) ∧
      PortIs full 2 .rack ∧ full.racks[2].slots[0].occupant = .empty ∧
      (min 100 79 < s.limits.readyThreshold ∧ s.limits.readyThreshold ≤ min 100 80) ∧
      (docked .stray none).id ≠ 9) ∧
      (∀ id ∈ [(0 : BitVec 24), 9, 0xFFFFFF], ∀ q : RecNo, s.receivers[q].data.map (·.id) ≠ some id) ∧
      ∀ q : RecNo, full.receivers[q].data = some (docked .stray none) := by
  refine ⟨by unfold PortIs; decide +kernel, fun id hid q => ?_, fun q => by simp⟩
  rw [racked_data]
  split
  · intro h
    obtain rfl : (77 : BitVec 24) = id := by simpa [docked] using h
    exact absurd hid (by decide)
  · simp

/-- Record 5 in slot 3, in pool and charge queue, with the clock at its dock stamp's edge of 2^31 − 1 ms later. -/
def shelf (state : RecState) : State :=
  { racked (docked state none) with pool := [5], clock := 0x8000031F }.modRack 2 fun e => { e with chargeQueue := [5] }

theorem shelf_docked (state : RecState) : (shelf state).outfits = [] ∧
    ∀ x ∈ (shelf state).pool ++ (shelf state).racks[2].chargeQueue,
      Docked (shelf state) x ∧ DockedOfLate (shelf state) x := by
  refine ⟨rfl, fun x hx => ?_⟩
  obtain rfl : x = 5 := by
    simpa [shelf, State.modRack] using hx
  exact ⟨⟨docked state none, rfl, by simp [docked], by simp [docked]⟩,
    ⟨docked state none, rfl, by simp [docked], 800, rfl, by
      show ((0x8000031F : Clock) - 800).toNat < 2 ^ 31; decide⟩⟩

/-- For the slot 0 of the rack, an unknown id, and a level on either side of the threshold and at 100. -/
theorem witness_DockOfAnUnknownReceiver_placed : (shelf .dockedReady).racks[2].slots[0].occupant = .empty ∧
    PortIs (shelf .dockedReady) 2 .rack ∧ (shelf .dockedReady).receivers[0].data = none ∧
    (∀ q : RecNo, (shelf .dockedReady).receivers[q].data.map (·.id) ≠ some 9) ∧
    79 < (shelf .dockedReady).limits.readyThreshold ∧ (shelf .dockedReady).limits.readyThreshold ≤ 80 := by
  refine ⟨by decide +kernel, by unfold PortIs; decide +kernel, by decide +kernel, fun q => ?_, by decide +kernel⟩
  exact (witness_DockOfAnUnknownReceiver.2.1 9 (by decide)) q

/-- Record 6 from outside, STRAY, ISSUED and OVERDUE, into slot 0; an UNKEY waits for that slot, and does not. -/
theorem witness_DockOfAKnownReceiver_placed :
    let away (state : RecState) : ReceiverData := { docked state (some 95) with id := 78, place := none }
    let u (state : RecState) : State := { shelf .dockedReady with
      receivers := (shelf .dockedReady).receivers.set 6 ⟨some (away state), 1⟩ }
    (∀ state ∈ [RecState.stray, .issued, .overdue], PortIs (u state) 2 .rack ∧
      (u state).racks[2].slots[0].occupant = .empty ∧ (u state).receivers[6].data = some (away state) ∧
      (away state).place = none ∧ (away state).keyedProgram = some 95 ∧ (u state).outfits = [] ∧
      (u state).pool ++ (u state).racks[2].chargeQueue = [5, 5] ∧
      (u state).receivers[5].data = some (docked .dockedReady none)) ∧
      (∀ q : RecNo, q < 6 → (u .issued).receivers[q].data.map (·.id) ≠ some (away .issued).id) ∧
      (docked .dockedReady none).place ≠ none ∧ (docked .dockedReady none).dockStamp ≠ none ∧
      ((u .issued).racks[2].inFlight = false ∧ KeyOrder.unkey 0 ∉ (u .issued).racks[2].keyQueue) := by
  unfold PortIs; decide +kernel

/-- The receiver in its slot; a STRAY one and an ISSUED one from outside; slots with something else, and a receiver
recorded in slot 3 that is docked in slot 0. -/
theorem witness_DockOfAKnownReceiver :
    let s := racked (docked .dockedReady none)
    let away (state : RecState) : ReceiverData := { docked state (some 95) with place := none }
    let u (state : RecState) : State := { demo with receivers := demo.receivers.set 5 ⟨some (away state), 1⟩ }
    PortIs s 2 .rack ∧ s.receivers[5].data = some (docked .dockedReady none) ∧
      s.racks[2].slots[3].occupant = .receiver 5 ∧
      (∀ state ∈ [RecState.stray, .issued, .overdue], PortIs (u state) 2 .rack ∧
        (u state).receivers[5].data = some (away state) ∧ (u state).racks[2].slots[0].occupant = .empty ∧
        (away state).place = none ∧ (away state).keyedProgram = some 95 ∧
        min 100 79 < (u state).limits.readyThreshold) ∧
      (∀ q : RecNo, q < 5 → (u .issued).receivers[q].data.map (·.id) ≠ some (away .issued).id) ∧
      (s.modSlot 2 39 fun e => { e with occupant := .unregistered }).racks[2].slots[39].occupant = .unregistered ∧
      ((s.modSlot 2 39 fun e => { e with occupant := .receiver 6 }).racks[2].slots[39].occupant = .receiver 6 ∧
        s.receivers[6].data.map (·.id) ≠ some (77 : BitVec 24)) ∧
      s.racks[2].slots[0].occupant = .empty ∧ (docked .dockedReady none).place = some (2, 3) ∧
      (∀ q : RecNo, q < 5 → s.receivers[q].data.map (·.id) ≠ some (77 : BitVec 24)) := by
  unfold PortIs; decide +kernel

theorem witness_UndockByWhatTheSlotHolds :
    let s := (racked (docked .keyed (some 95))).modSlot 2 39 fun e => { e with occupant := .unregistered }
    PortIs s 2 .rack ∧
      (∀ state ∈ [RecState.keyed, .dockedCharging, .dockedReady, .keying, .faulty],
        InSlot (racked (docked state (some 95))) 2 3 5 (docked state (some 95)) ∧
        state ≠ .issued ∧ state ≠ .overdue ∧ state ≠ .stray) ∧
      (docked .keyed (some 95)).keyedProgram = some 95 ∧
      s.racks[2].slots[39].occupant = .unregistered ∧ s.racks[2].slots[0].occupant = .empty := by
  unfold PortIs InSlot; decide +kernel

/-- A working and a FAULTY receiver, an empty slot and an unregistered occupant; levels around the threshold. -/
theorem witness_BatteryAndChargeReports :
    let s := (racked (docked .dockedCharging none)).modSlot 2 39 fun e => { e with occupant := .unregistered }
    PortIs s 2 .rack ∧ InSlot s 2 3 5 (docked .dockedCharging none) ∧
      (docked .dockedCharging none).state ≠ .faulty ∧ s.limits.readyThreshold ≤ min 100 80 ∧
      min 100 79 < s.limits.readyThreshold ∧ PortIs (racked (docked .faulty none)) 2 .rack ∧
      InSlot (racked (docked .faulty none)) 2 3 5 (docked .faulty none) ∧
      s.racks[2].slots[39].occupant = .unregistered ∧ s.racks[2].slots[0].occupant = .empty := by
  unfold PortIs InSlot; decide +kernel

/-- CHARGING and a member of pool and queue, at 80, 79 and 100; a rack under its limit of grants with a queue, one
offline, one at its limit, and one with nothing in its queue. -/
theorem witness_BatteryAndChargeReports_placed :
    let s := shelf .dockedCharging
    let d := docked .dockedCharging none
    (PortIs s 2 .rack ∧ InSlot s 2 3 5 d ∧ d.place = some (2, 3) ∧ d.state ≠ .faulty ∧ 5 ∈ s.pool ∧
      s.limits.readyThreshold ≤ min 100 80 ∧ ¬ s.limits.readyThreshold ≤ min 100 79) ∧
      InSlot (shelf .dockedReady) 2 3 5 (docked .dockedReady none) ∧ 6 ∉ s.pool ∧
      (s.racks[2].chargeQueue = 5 :: [] ∧ s.racks[2].online = true ∧
        s.racks[2].grants.length < s.racks[2].grantLimit ∧ s.receivers[5].data = some d) ∧
      s.racks[5].online = false ∧ s.racks[2].grantLimit ≤ (List.replicate 12 (5 : RecNo)).length ∧
      (racked d).racks[2].chargeQueue = [] := by
  unfold PortIs InSlot; decide +kernel

theorem witness_InventoryRepeatsAndEnds :
    let s := (racked (docked .dockedReady none)).modRack 2 fun e =>
      { e with inventory := true, inventoryDeadline := some 900 }
    s.phase = .running ∧ s.racks[2].inventory = true ∧ s.due s.racks[2].inventoryDeadline = true ∧
      PortIs s 2 .rack ∧ PortIs (racked (docked .dockedReady none)) 2 .rack ∧
      (racked (docked .dockedReady none)).racks[2].inventory = false := by
  unfold PortIs; decide +kernel

/-- A rack whose inventory ends: record 5 confirmed, DOCKED_READY, in slot 3, which owes an UNKEY; slot 4 empty. -/
def counted : State :=
  (racked (docked .dockedReady none)).modRack 2 fun e =>
    { e with online := false, inventory := true, slots := e.slots.set 3 ⟨.receiver 5, true⟩ }

theorem counted_slots (j : RackSlot) :
    counted.racks[(2 : PortNo)].slots[j].occupant = if j = 3 then .receiver 5 else .empty :=
  (by decide +kernel : ∀ j : RackSlot,
    counted.racks[(2 : PortNo)].slots[j].occupant = if j = 3 then .receiver 5 else .empty) j

/-- After the receivers that are still unconfirmed left: none did. -/
def settledRack : State := (List.finRange 40).foldl (fun x j => reconcile 2 j x) counted

theorem settledRack_eq : settledRack = counted := by
  refine List.foldl_fixed' (fun j => ?_) _
  unfold reconcile
  rw [counted_slots]
  by_cases h : j = 3
  · rw [if_pos h]
    exact if_neg (by decide +kernel)
  · rw [if_neg h]

theorem witness_InventoryRepeatsAndEnds_steps :
    PortIs counted 2 .rack ∧ counted.racks[2].inventory = true ∧ counted.outfits = [] ∧
      settledRack.racks[2].chargeQueue = [] ∧
      (∀ (i j : RackSlot) (r : RecNo), settledRack.racks[2].slots[i].occupant = .receiver r →
        settledRack.racks[2].slots[j].occupant = .receiver r → i = j) ∧
      (∀ r ∈ settledRack.pool, Docked settledRack r) ∧
      (∀ (j : RackSlot) (r : RecNo) (d : ReceiverData), InSlot settledRack 2 j r d →
        d.place ≠ none ∧ d.dockStamp ≠ none) ∧
      ∀ r : RecNo, (∃ d, settledRack.receivers[r].data = some d ∧ d.state = .dockedReady ∧
        d.place.map (·.1) = some 2) → Docked settledRack r ∧ r ∉ settledRack.pool := by
  have here : ∀ (r : RecNo) (d : ReceiverData), counted.receivers[r].data = some d →
      d = docked .dockedReady none := by
    intro r d h
    change (racked (docked .dockedReady none)).receivers[r].data = some d at h
    rw [racked_data] at h
    split at h <;> simp_all
  have slot : ∀ (i : RackSlot) (r : RecNo), counted.racks[(2 : PortNo)].slots[i].occupant = .receiver r → i = 3 := by
    intro i r h
    rw [counted_slots i] at h
    split at h <;> simp_all
  have pool : counted.pool = [] := rfl
  rw [settledRack_eq]
  refine ⟨by unfold PortIs; decide +kernel, rfl, rfl, rfl, fun i j r hi hj => (slot i r hi).trans (slot j r hj).symm,
    by simp [pool], fun j r d h => ?_, fun r ⟨d, h, _⟩ => ⟨⟨d, h, ?_⟩, by simp [pool]⟩⟩
  · cases here r d h.2; simp [docked]
  · cases here r d h; simp [docked]

/-! ### Witnesses: control requests -/

/-- A request asked for on L0 is the head of the queue. -/
theorem asked_serving (kind : Nat) (operands : List Byte) :
    Serving (asked kind operands) 0 (requestPayload 7 kind operands) [] := ⟨rfl, rfl⟩

/-- The last entry of the largest table, and a read-and-clear of the last program. -/
theorem witness_ReadEntryReportsTheEntry :
    319 < Table.receiver.entries ∧
      Serving (asked 1 (put8 Table.receiver.code ++ put8 0 ++ put16 319)) 0
        (requestPayload 7 1 (put8 Table.receiver.code ++ put8 0 ++ put16 319)) [] ∧
      Serving (asked 1 (put8 3 ++ put8 1 ++ put16 (95 : ProgNo).val)) 0
        (requestPayload 7 1 (put8 3 ++ put8 1 ++ put16 (95 : ProgNo).val)) [] :=
  ⟨by decide, asked_serving _ _, asked_serving _ _⟩

/-- The greatest values, and the first index past the table; thresholds at both ends, equal, and outside; a notice port
that is DESK, one that is not, and the first number past the ports; the first mask above 18 bits. -/
theorem witness_WriteEntrySetsTheEntry :
    (∀ operands, Serving (asked 2 operands) 0 (requestPayload 7 2 operands) []) ∧
      4294967295 < 4294967296 ∧ 4095 < 4096 ∧ demo.limits.leave < demo.limits.join ∧ 16 ≤ 16 ∧ 16 < 65536 ∧
      (1 ≤ 1 ∧ 1 < 127 ∧ 127 ≤ 127) ∧ 127 ≤ 127 ∧ 0 < 1 ∧ 127 < 128 ∧ 28 ≤ demo.limits.leave ∧ 11 < 12 ∧
      demo.ports[6].role = .desk ∧ demo.ports[11].role ≠ .desk ∧ 0x3FFFF < 0x40000 :=
  ⟨asked_serving 2, by decide +kernel⟩

/-- Below, at and above the ends of two fields; the thresholds in order; a queue of one docked receiver; a mask of 18
bits. -/
theorem witness_WriteEntrySetsTheEntry_limits :
    (12, 5, 40) ∈ [(1, 100, 2000), (2, 1, 8), (3, 1, 30), (6, 0, 15), (7, 100, 2000), (8, 0, 250), (9, 0, 60),
        (10, 50, 100), (11, 10, 720), (12, 5, 40), (13, 0, 7)] ∧
      (max 5 (min 40 0) = 5 ∧ max 5 (min 40 4294967295) = 40 ∧ 4294967295 < 4294967296) ∧
      (shelf .dockedReady).limits.leave < (shelf .dockedReady).limits.join ∧
      (∀ r ∈ (shelf .dockedReady).racks[2].chargeQueue, DockedOfLate (shelf .dockedReady) r) ∧
      (shelf .dockedReady).racks[2].chargeQueue.Pairwise (ChargeOrder (shelf .dockedReady)) ∧ 0x3FFFF ≤ 0x3FFFF :=
  ⟨by decide, by decide, by decide +kernel,
    fun r hr => ((shelf_docked .dockedReady).2 r (List.mem_append_right _ hr)).2,
    List.pairwise_singleton _ _, by decide⟩

/-- The generation of the limits, 0, is LE 0 and LT 1 and EQ 0 but not LT 0; an absent value is none of them. A field
that no request writes; a value in range and one past it; a notice port that is DESK and one that is not; the desk's
own port and another. And a gain's generation, plain and negated. -/
theorem witness_CondWriteWritesUnderItsTest :
    (∀ operands, Serving (asked 3 operands) 0 (requestPayload 7 3 operands) []) ∧
      (319 < Table.receiver.entries ∧ Table.receiver.mayTest 14 = true ∧ Table.receiver.hasField 1 = true ∧
        Table.receiver.isWritable 1 = false) ∧
      (0 < Table.limits.entries ∧ Table.limits.mayTest 16 = true ∧ Table.limits.hasField 14 = true ∧
        testValue demo .limits 0 16 = some 0 ∧ (0 ≤ 0 ∧ 0 < 1 ∧ ¬ 0 < 0) ∧
        testValue demo .source 63 1 = none) ∧
      (Table.limits.isWritable 14 = true ∧ writeRange demo .limits 0 [(14, 12)] = true ∧
        writeRange demo .limits 0 [(14, 11)] = false ∧ writeRefused demo .limits 0 [(14, 11)] = true ∧
        writeRange demo .limits 0 [(14, 6)] = false ∧ writeRefused demo .limits 0 [(14, 6)] = false) ∧
      (ownRoleChange 0 .limits ⟨7, 0, [(14, 6)]⟩ demo = none ∧
        ownRoleChange 0 .port ⟨6, 0, [(1, 0)]⟩ demo = some .unused ∧
        writeRange demo .port 0 [(1, 0)] = false ∧ writeRefused demo .port 0 [(1, 0)] = false) ∧
      (demo.gains[15].generation.toNat = 0 ↔ false = false) ∧
      ¬ (demo.gains[15].generation.toNat = 4294967295 ↔ false = false) ∧
      ¬ (demo.gains[15].generation.toNat = 0 ↔ true = false) :=
  ⟨asked_serving 3, by decide +kernel⟩

/-- A candidate of slot 0 with this IN stamp on this port. -/
def candidate (stamp : Clock) (g : PortNo) : HearingRecord :=
  { hearing 400 .inside with inStamp := some stamp, port := g }

theorem witness_OpenTourOpensTheTour :
    (∀ operands, Serving (asked 4 operands) 0 (requestPayload 7 4 operands) []) ∧
      demo.tours[23].state = .closed ∧ (∀ l : LangSlot, demo.programs[progOf 23 l].issued = 0) ∧
      demo.sources[0].state ≠ .unused ∧ demo.sources[0].role = .guide ∧
      (∀ u : TourNo, u ≠ 23 → demo.tours[u].state = .opened → demo.tours[u].guide ≠ some 0) :=
  ⟨asked_serving 4, by decide +kernel⟩

/-- Tour 0 OPEN, its base program in GUIDE mode, and a request at the head. -/
def touring (kind : Nat) (operands : List Byte) : State :=
  { mixing .fill with requests := [⟨0, requestPayload 7 kind operands⟩] }

/-- An OPEN tour with a LINKED program, whose target in another tour is not wanted; a CLOSED one, 24, and a reserved
byte. -/
theorem witness_CloseTourClosesTheTour :
    let s := (touring 5 (put8 0 ++ put8 0)).modProgram 1 fun r => { r with mode := .linked, target := some 4 }
    Serving s 0 (requestPayload 7 5 (put8 0 ++ put8 0)) [] ∧ s.tours[0].state = .opened ∧
      (s.programs[1].mode = .linked ∧ s.programs[1].target = some 4 ∧ tourOf 1 = 0 ∧ tourOf 4 ≠ 0) ∧
      (∀ q : ProgNo, tourOf q = 0 → s.programs[q].mode = .linked → q = 1) ∧
      (s.programs[4].wanted = true ↔ isWanted s 4 = true) ∧
      (∀ operands, Serving (asked 5 operands) 0 (requestPayload 7 5 operands) []) ∧
      demo.tours[23].state = .closed ∧ 23 < 24 ∧ 1 ≠ 0 :=
  ⟨⟨rfl, rfl⟩, by decide +kernel, by decide +kernel, by decide +kernel, by decide +kernel, asked_serving 5,
    by decide +kernel⟩

/-- Four candidates, two with one stamp on different ports and one across the wrap of the clock; a frozen guide. -/
theorem witness_OpenTourOpensTheTour_joined :
    let s := heard [candidate 9 1, candidate 8 4, candidate 8 7, candidate 0xFFFFFFFF 9]
    let cs := [candidate 0xFFFFFFFF 9, candidate 8 4, candidate 8 7, candidate 9 1]
    s.guideFrozen[0] = false ∧ (∀ r, r ∈ cs ↔ r ∈ s.hearing ∧ r.slot = 0 ∧ r.comparator = .inside) ∧
      cs.Pairwise (fun x y => x.port ≠ y.port ∧ (StampFirst x.inStamp y.inStamp ∨
        (x.inStamp = y.inStamp ∧ x.port < y.port))) ∧
      ({ s with guideFrozen := s.guideFrozen.set 0 true }).guideFrozen[0] = true := by
  have first (a b : Clock) (g h : PortNo) (lt : earlier a b = true) :
      StampFirst (candidate a g).inStamp (candidate b h).inStamp := ⟨a, rfl, b, rfl, lt⟩
  refine ⟨by decide +kernel, ?_, ?_, by decide +kernel⟩
  · intro r
    constructor
    · intro h
      exact (by decide +kernel : ∀ x ∈ [candidate 0xFFFFFFFF 9, candidate 8 4, candidate 8 7, candidate 9 1],
        x ∈ (heard [candidate 9 1, candidate 8 4, candidate 8 7, candidate 0xFFFFFFFF 9]).hearing ∧ x.slot = 0 ∧
          x.comparator = .inside) r h
    · intro h
      exact (by decide +kernel : ∀ x ∈ [candidate 9 1, candidate 8 4, candidate 8 7, candidate 0xFFFFFFFF 9],
        x ∈ [candidate 0xFFFFFFFF 9, candidate 8 4, candidate 8 7, candidate 9 1]) r h.1
  · refine .cons ?_ (.cons ?_ (.cons ?_ (List.pairwise_singleton _ _)))
    · intro y hy
      refine ⟨(by decide +kernel : ∀ y ∈ [candidate 8 4, candidate 8 7, candidate 9 1], (9 : PortNo) ≠ y.port) y hy,
        .inl ?_⟩
      obtain ⟨b, g, rfl, lt⟩ : ∃ b g, y = candidate b g ∧ earlier 0xFFFFFFFF b = true := by
        simp only [List.mem_cons, List.not_mem_nil, or_false] at hy
        rcases hy with rfl | rfl | rfl
        · exact ⟨8, 4, rfl, by decide +kernel⟩
        · exact ⟨8, 7, rfl, by decide +kernel⟩
        · exact ⟨9, 1, rfl, by decide +kernel⟩
      exact first _ _ _ _ lt
    · intro y hy
      simp only [List.mem_cons, List.not_mem_nil, or_false] at hy
      rcases hy with rfl | rfl
      · exact ⟨by decide, .inr ⟨rfl, by decide⟩⟩
      · exact ⟨by decide, .inl (first _ _ _ _ (by decide +kernel))⟩
    · intro y hy
      cases List.mem_singleton.mp hy
      exact ⟨by decide, .inl (first _ _ _ _ (by decide +kernel))⟩

/-- Tour 24, slot 64, class 4; an OPEN tour, an issued receiver, an UNUSED slot, an interpreter, and the guide of
another OPEN tour. -/
theorem witness_OpenTourOpensTheTour_refused :
    let s := touring 4 (put8 1 ++ put8 0 ++ put8 0 ++ put8 0)
    let u := (asked 4 (put8 23 ++ put8 0 ++ put8 3 ++ put8 0)).modProgram 95 fun r => { r with issued := 1 }
    Serving s 0 (requestPayload 7 4 (put8 1 ++ put8 0 ++ put8 0 ++ put8 0)) [] ∧
      Serving u 0 (requestPayload 7 4 (put8 23 ++ put8 0 ++ put8 3 ++ put8 0)) [] ∧
      (23 < 24 ∧ 24 < 256 ∧ 63 < 64 ∧ 3 < 4 ∧ 1 ≠ 0) ∧ s.tours[0].state = .opened ∧
      0 < u.programs[progOf 23 3].issued ∧ demo.sources[63].state = .unused ∧ demo.sources[1].role ≠ .guide ∧
      ((0 : TourNo) ≠ 1 ∧ s.tours[0].guide = some 0) :=
  ⟨⟨rfl, rfl⟩, ⟨rfl, rfl⟩, by decide, by decide +kernel⟩

/-- With seven orders queued, for 0 receivers and for 255. -/
theorem witness_OutfitOrdersComeAndGo_created :
    let s := { touring 6 (put8 0 ++ put8 0 ++ put8 255 ++ put8 0) with
      outfits := List.replicate 7 (⟨9, 1, 1, 1, 0, 0, 0⟩ : OutfitOrder) }
    Serving s 0 (requestPayload 7 6 (put8 0 ++ put8 0 ++ put8 255 ++ put8 0)) [] ∧ 255 < 256 ∧ 0 < 256 ∧
      s.tours[0].state = .opened ∧ s.programs[progOf 0 0].mode ≠ .unset ∧ s.outfits.length < 8 :=
  ⟨⟨rfl, rfl⟩, by decide +kernel⟩

/-- A reserved byte; tour 24, language 4; a CLOSED tour, an UNSET program, and eight orders; a number that none holds.
-/
theorem witness_OutfitOrdersComeAndGo_refused :
    let full := { touring 6 (put8 0 ++ put8 0 ++ put8 1 ++ put8 0) with
      outfits := List.replicate 8 (⟨9, 1, 1, 1, 0, 0, 0⟩ : OutfitOrder) }
    (∀ kind operands, Serving (asked kind operands) 0 (requestPayload 7 kind operands) []) ∧
      Serving full 0 (requestPayload 7 6 (put8 0 ++ put8 0 ++ put8 1 ++ put8 0)) [] ∧
      (1 ≠ 0 ∧ 23 < 24 ∧ 3 < 4) ∧ demo.tours[23].state = .closed ∧ demo.programs[progOf 0 3].mode = .unset ∧
      (full.tours[0].state = .opened ∧ full.programs[progOf 0 0].mode ≠ .unset ∧ 8 ≤ full.outfits.length) ∧
      ∀ o ∈ full.outfits, o.number ≠ 8 :=
  ⟨asked_serving, ⟨rfl, rfl⟩, by decide, by decide +kernel⟩

theorem witness_OutfitOrdersComeAndGo_cancelled :
    let o : OutfitOrder := ⟨65535, 1, 1, 1, 0, 0, 0⟩
    let s := { asked 7 (put16 (65535 : BitVec 16).toNat) with outfits := [o] }
    Serving s 0 (requestPayload 7 7 (put16 (65535 : BitVec 16).toNat)) [] ∧ orderOf s 65535 = some o :=
  ⟨⟨rfl, rfl⟩, by decide +kernel⟩

/-- Durations 0 and 65535; a free record, one that holds the slot, PENDING or ON, and four that hold another. -/
theorem witness_AnnounceFillsRenewsAndFreesRecords_started :
    let other : Announcement := { announcement .on with slot := 9 }
    let own := demo.setAnnouncement 3 (some (announcement .waiting))
    let full := { demo with announcements := Vector.replicate 4 (some other) }
    (∀ operands, Serving (asked 8 operands) 0 (requestPayload 7 8 operands) []) ∧ 0 < 65536 ∧ 65535 < 65536 ∧
      demo.sources[2].state ≠ .unused ∧ demo.sources[2].role = .announcer ∧
      (∀ m : AnnNo, demo.announcements[m] = none) ∧
      (own.announcements[3] = some (announcement .waiting) ∧ (announcement .waiting).slot = 2 ∧
        ∀ m : AnnNo, m < 3 → own.announcements[m] = none) ∧
      (own.setAnnouncement 0 (some (announcement .on))).announcements[0] = some (announcement .on) ∧
      (∀ n : AnnNo, full.announcements[n] = some other) ∧ other.slot ≠ 2 ∧ demo.sources[2].state = .live :=
  ⟨asked_serving 8, by decide +kernel⟩

/-- The flags 0, 2 and 3; without a record for the slot, and with one, ON or PENDING. -/
theorem witness_AnnounceFillsRenewsAndFreesRecords_stopped :
    let own := demo.setAnnouncement 3 (some (announcement .on))
    (∀ operands, Serving (asked 8 operands) 0 (requestPayload 7 8 operands) []) ∧ 0 < 4 ∧ 3 < 4 ∧ 2 ≤ 2 ∧
      (∀ m : AnnNo, demo.announcements[m] = none) ∧ own.announcements[3] = some (announcement .on) ∧
      (announcement .on).slot = 2 ∧ (∀ m : AnnNo, m ≠ 3 → own.announcements[m] = none) ∧
      (demo.setAnnouncement 3 (some (announcement .waiting))).announcements[3] =
        some (announcement .waiting) :=
  ⟨asked_serving 8, by decide +kernel⟩

/-- A query of a held record; slot 64, priority 4, steps of 16, with each flag; the start of an UNUSED slot and of a
guide. -/
theorem witness_AnnounceFillsRenewsAndFreesRecords_refused :
    let own := demo.setAnnouncement 3 (some (announcement .on))
    (∀ operands, Serving (asked 8 operands) 0 (requestPayload 7 8 operands) []) ∧
      (own.announcements[3] = some (announcement .on) ∧ (announcement .on).slot = 2 ∧
        ∀ m : AnnNo, m < 3 → own.announcements[m] = none) ∧
      (63 < 64 ∧ 3 < 4 ∧ 15 < 16 ∧ 0 < 4 ∧ 1 < 4 ∧ 2 ≤ 3 ∧ 3 < 4) ∧ demo.sources[63].state = .unused ∧
      demo.sources[0].role ≠ .announcer :=
  ⟨asked_serving 8, by decide +kernel⟩

/-- CLEAR_FLAGS of the last program; SAVE_CONFIG with and without a save running. -/
theorem witness_ServiceRequestsAnswer_served :
    (∀ kind operands, Serving (asked kind operands) 0 (requestPayload 7 kind operands) []) ∧
      (asked 12 []).saving = none ∧
      Serving { saver with requests := [⟨0, requestPayload 7 12 []⟩] } 0 (requestPayload 7 12 []) [] ∧
      saver.saving ≠ none := ⟨asked_serving, rfl, ⟨rfl, rfl⟩, by decide +kernel⟩

theorem witness_RestartKeepsSettingsAndReceivers :
    Serving (asked 13 []) 0 (requestPayload 7 13 []) [] ∧
      (asked 13 []).limits.enabled .hubStarted = true := ⟨⟨rfl, rfl⟩, by decide +kernel⟩

/-- The kinds 0, 14 and 255, and the kinds 10 to 13 with an operand. -/
theorem witness_ServiceRequestsAnswer_malformed :
    (∀ kind operands, Serving (asked kind operands) 0 (requestPayload 7 kind operands) []) ∧
      (13 < 14 ∧ 255 < 256) ∧ ([0] : List Byte) ≠ [] := ⟨asked_serving, by decide, by decide⟩

/-! ### Witnesses: observations, gallery sets and carriers -/

/-- Tour 0 OPEN with the guide of slot 0, these hearing records and this gallery set. -/
def guiding (records : List HearingRecord) (set : List PortNo) : State :=
  { mixing .fill with hearing := records }.modTour 0 fun r => { r with gallerySet := set }

/-- A full hearing table without a record of slot 0: IN, but for its first record, which is as given. -/
def crowd (first : Comparator) : List HearingRecord :=
  (List.range 96).map fun k =>
    { hearing 400 (if k = 0 then first else .inside) with
      slot := Fin.ofNat 64 (1 + k / 12), port := Fin.ofNat 12 k }

/-- Levels at and just below the thresholds, for each state of the comparator, with a leave hold and without; a pair
without a record, while the table has room and while it is full, with an OUT record and with none. The guide serves a
tour whose set is empty, holds the gallery, and is full; and no tour. -/
theorem witness_ObservationMovesTheComparator :
    ((∀ r ∈ [hearing 320 .out, hearing 319 .out, hearing 224 .leaving, hearing 224 .inside],
      hearingOf (guiding [r] []) 0 1 = some r ∧ r.frozen = false) ∧
      demo.limits.join ≤ smooth 320 (min 127 40) / 8 ∧ smooth 319 (min 127 39) / 8 < demo.limits.join ∧
      demo.limits.leave ≤ smooth 224 (min 127 28) / 8 ∧ smooth 224 (min 127 27) / 8 < demo.limits.leave ∧
      demo.limits.leaveHoldS ≠ 0 ∧
      ({ demo with limits := { demo.limits with leaveHoldS := 0 } }).limits.leaveHoldS = 0 ∧
      hearingOf (guiding [] []) 0 1 = none ∧ min 127 39 < demo.limits.join ∧
      demo.limits.join ≤ min 127 40 ∧ hearingOf (guiding (crowd .out) []) 0 1 = none) ∧
      MakesRoom [] [] ∧ MakesRoom (crowd .out) ((crowd .out).filter fun x => !(x.slot = 1 ∧ x.port = 0)) ∧
      96 ≤ (crowd .inside).length ∧ (∀ x ∈ crowd .inside, x.comparator ≠ .out) ∧
      servedTour demo 0 = none ∧ servedTour (guiding [] []) 0 = some 0 ∧
      (HasRoomFor (guiding [] [2, 3]) 0 ∧ (1 : PortNo) ∉ (guiding [] [2, 3]).tours[0].gallerySet) ∧
      ¬ HasRoomFor (guiding [] [2, 3, 4]) 0 ∧ (1 : PortNo) ∈ (guiding [] [1]).tours[0].gallerySet := by
  have only : ∀ x ∈ crowd .out, x.comparator = .out → x = { hearing 400 .out with slot := 1, port := 0 } := by
    decide +kernel
  refine ⟨by decide +kernel, .inl ⟨by decide, rfl⟩,
    .inr ⟨by decide +kernel, { hearing 400 .out with slot := 1, port := 0 },
      by decide +kernel, rfl, fun x hx ho hne => absurd (only x hx ho) hne, rfl⟩, ?_⟩
  unfold HasRoomFor; decide +kernel

/-- A LEAVING record of a member and of no member; two candidates with one stamp, and with the stamps 8 and 9, and the
room for one; a full set; a thaw of three records that stay as they are, with and without a tour served. -/
theorem witness_LeavesAndThawsOfferPlaces :
    let r := hearing 400 .leaving
    let s := guiding [r] [1]
    let c := guiding [candidate 9 1, candidate 8 4, candidate 8 7] [2, 3]
    let thawed := [hearing 319 .out, { hearing 224 .inside with port := 4 }, { hearing 223 .leaving with port := 7 }]
    (s.phase = .running ∧ hearingOf s 0 1 = some r ∧ r.frozen = false ∧ s.due r.leaveDeadline = true) ∧
      (servedTour s 0 = some 0 ∧ (1 : PortNo) ∈ s.tours[0].gallerySet ∧
        (1 : PortNo) ∉ (guiding [r] []).tours[0].gallerySet) ∧
      ((guiding [] []).tours[1].state = .closed ∧ ¬ HasRoomFor (guiding [] [2, 3, 4]) 0) ∧
      (c.tours[0].state = .opened ∧ HasRoomFor c 0 ∧ c.tours[0].guide = some 0 ∧
        (4 : PortNo) ∉ c.tours[0].gallerySet) ∧
      (∀ x ∈ c.hearing, x.slot = 0 → x.comparator = .inside → x.port ∉ c.tours[0].gallerySet → x ≠ candidate 8 4 →
        ∃ a, (candidate 8 4).inStamp = some a ∧ ∃ b, x.inStamp = some b ∧
          (earlier a b = true ∨ (a = b ∧ (4 : PortNo) < x.port))) ∧
      ((guiding thawed []).limits.leaveHoldS ≠ 0 ∧
        (∀ x ∈ thawed, x.slot = 0 → ∀ y ∈ thawed, y.slot = 0 → x.port = y.port → x = y) ∧
        (∀ x ∈ thawed, (x.comparator = .out ∧ x.est8 / 8 < demo.limits.join) ∨
          (x.comparator = .inside ∧ demo.limits.leave ≤ x.est8 / 8) ∨
          (x.comparator = .leaving ∧ x.est8 / 8 < demo.limits.leave)) ∧
        servedTour (guiding thawed []) 0 = some 0 ∧ servedTour (heard thawed) 0 = none) := by
  refine ⟨by decide +kernel, by decide +kernel, by unfold HasRoomFor; decide +kernel,
    by unfold HasRoomFor; decide +kernel, ?_, by decide +kernel⟩
  intro x hx _ _ _ hne
  have : x = candidate 9 1 ∨ x = candidate 8 4 ∨ x = candidate 8 7 := by
    simpa [guiding, State.modTour] using hx
  rcases this with rfl | rfl | rfl
  · exact ⟨8, rfl, 9, rfl, by decide +kernel⟩
  · exact absurd rfl hne
  · exact ⟨8, rfl, 8, rfl, by decide +kernel⟩

/-- `demo` with these carriers and this wait list on L1. -/
def carrying (cs : Vector Carrier 8) (waiting : List Waiter) : State :=
  demo.modGallery 1 fun e => { e with carriers := cs, waitList := waiting }

/-- Eight LIVE carriers with the programs 1, 5, …, 29. -/
def busy : Vector Carrier 8 := Vector.ofFn fun c => ⟨.live, some (Fin.ofNat 96 (4 * c.val + 1)), none, none⟩

/-- Served, waiting and neither; a PARKED carrier of the program; a FREE one; two PARKED ones with one deadline; eight
occupants, the program ranking above the lowest of them and not; a settle time of 0; the wait list's middle. -/
theorem witness_DemandArrivalAllocates :
    let own := carrying (busy.set 7 ⟨.parked, some 0, none, some 900⟩) []
    let free := carrying (busy.set 7 Carrier.free) []
    let two := carrying ((busy.set 6 ⟨.parked, some 9, none, some 900⟩).set 7 ⟨.parked, some 8, none, some 900⟩) []
    let full := carrying busy [⟨4, 0⟩, ⟨95, 0⟩]
    ((ServedOrWaiting full 1 1 ∧ ServedOrWaiting full 95 1 ∧ ¬ ServedOrWaiting full 0 1) ∧
      (¬ ServedOrWaiting own 0 1 ∧ own.galleries[1].carriers[7].state = .parked ∧
        own.galleries[1].carriers[7].program = some 0 ∧
        ∀ d : CarrierNo, d < 7 → own.galleries[1].carriers[d].state ≠ .parked) ∧
      (¬ ServedOrWaiting free 0 1 ∧ free.galleries[1].carriers[7].state = .free ∧
        ∀ d : CarrierNo, d < 7 → free.galleries[1].carriers[d].state ≠ .free) ∧
      (¬ ServedOrWaiting two 0 1 ∧ (∀ d : CarrierNo, two.galleries[1].carriers[d].program ≠ some 0 ∧
          two.galleries[1].carriers[d].state ≠ .free) ∧ two.galleries[1].carriers[6].state = .parked ∧
        two.galleries[1].carriers[6].parkDeadline = some 900)) ∧
      (∀ d : CarrierNo, d ≠ 6 → two.galleries[1].carriers[d].state = .parked →
        ∃ y, two.galleries[1].carriers[d].parkDeadline = some y ∧
          (earlier 900 y = true ∨ (900 = y ∧ 6 < d))) ∧
      ((∀ d : CarrierNo, full.galleries[1].carriers[d].state = .live) ∧
        full.galleries[1].carriers[7].program = some 29 ∧
        (∀ d : CarrierNo, d ≠ 7 → ∀ q', full.galleries[1].carriers[d].program = some q' →
          ranksAbove full q' 29 = true) ∧
        ranksAbove full 0 29 = true ∧ ranksAbove full 93 29 = false) ∧
      (full.limits.settleMs ≠ 0 ∧
        ({ full with limits := { full.limits with settleMs := 0 } }).limits.settleMs = 0) ∧
      (full.galleries[1].waitList = [⟨4, 0⟩] ++ [⟨95, 0⟩] ∧ ranksAbove full 8 4 = false ∧
        ranksAbove full 8 95 = true) := by
  refine ⟨by unfold ServedOrWaiting; decide +kernel, ?_, by decide +kernel⟩
  intro d hd hs
  have only : ∀ d : CarrierNo, d ≠ 6 →
      (carrying ((busy.set 6 ⟨.parked, some 9, none, some 900⟩).set 7
        ⟨.parked, some 8, none, some 900⟩) []).galleries[1].carriers[d].state = .parked → d = 7 := by decide +kernel
  cases only d hd hs
  exact ⟨900, by decide +kernel, .inr ⟨rfl, by decide⟩⟩

/-- A waiting program, one that holds nothing, and one that is served, with programs waiting and with none, for a park
time of 20 seconds and of 0; a wait list in order but for one program. -/
theorem witness_DemandEndReleasesTheCarrier :
    let s := carrying busy [⟨4, 0⟩, ⟨95, 0⟩]
    isWaiting s.galleries[1] 95 = true ∧ ¬ ServedOrWaiting s 0 1 ∧ isWaiting s.galleries[1] 29 = false ∧
      s.galleries[1].carriers[7].program = some 29 ∧ s.galleries[1].carriers[7].state = .live ∧
      (∀ d : CarrierNo, d ≠ 7 → s.galleries[1].carriers[d].program ≠ some 29) ∧
      s.galleries[1].waitList = ⟨4, 0⟩ :: [⟨95, 0⟩] ∧ (carrying busy []).galleries[1].waitList = [] ∧
      s.limits.parkS ≠ 0 ∧ ({ s with limits := { s.limits with parkS := 0 } }).limits.parkS = 0 ∧
      (s.galleries[1].waitList.map (·.program)).Nodup ∧
      (s.galleries[1].waitList.filter fun w => !([(4 : ProgNo)].contains w.program)).Pairwise
        (fun x y => ranksAbove s x.program y.program = true) := by
  unfold ServedOrWaiting; decide +kernel

/-! ### Witnesses: programs and blocks -/

/-- A tour that opens, one that closed, and one that stays, for the program 0; LINKED for the program 1. -/
theorem witness_ActiveFollowsWanted :
    let s (tour : TourState) (st : ProgState) (wanted : Bool) : State :=
      (demo.modTour 0 fun r => { r with state := tour, guide := some 0, gallerySet := [1] }).modProgram 0 fun r =>
        { r with state := st, wanted := wanted, carryAlways := true }
    let linked := (s .opened .active true).modProgram 1 fun r =>
      { r with mode := .linked, target := some 0, state := .dormant, carryAlways := true }
    ((s .opened .dormant false).programs[0].target ≠ some 0 ∧
        (s .opened .dormant false).programs[0].state ≠ .active ∧
        (s .opened .dormant false).programs[0].wanted = false ∧
        (s .opened .dormant false).tours[0].state = .opened ∧
        (s .opened .dormant false).programs[0].mode ≠ .unset ∧
        (1 : PortNo) ∈ (s .opened .dormant false).tours[0].gallerySet) ∧
      ((s .closed .active true).programs[0].state = .active ∧ (s .closed .active true).programs[0].wanted = true ∧
        (s .closed .active true).tours[0].state ≠ .opened ∧
        (1 : PortNo) ∈ (s .closed .active true).tours[0].gallerySet) ∧
      ((s .opened .active true).programs[0].state = .active ∧ (s .opened .active true).programs[0].wanted = true ∧
        (s .opened .active true).tours[0].state = .opened) ∧
      (linked.programs[1].target ≠ some 1 ∧ linked.programs[1].state ≠ .active ∧
        linked.programs[1].wanted = false ∧ linked.tours[tourOf 1].state = .opened) := by decide +kernel

/-- Program 1 ACTIVE for the interpreter of slot 1, with the guide of slot 0, in this mode, condition and pace; its
floor has taken sequence 5. -/
def voiced (mode : VoiceMode) (c : VoiceCond) (pace : Pace) : State :=
  (mixing .fill).modProgram 1 fun r =>
    { r with
      mode := mode, interpreter := some 1, state := .active, cond := c, pace := pace, floorStep := 4
      floor := { r.floor with cursor := some 5 } }

/-- Each pair of a voice condition and what is available; the sources that are not are LOST. -/
theorem witness_VoiceConditionAndPaceFollow :
    let lost (i : SourceSlot) (s : State) : State := s.modSource i fun r => { r with state := .lost }
    let v := voiced .interpreter .voice .following
    let f := voiced .interpreter .fallback .following
    demo.programs[1].state ≠ .active ∧ v.programs[1].state = .active ∧ v.programs[1].mode = .interpreter ∧
      (guideAvailable (voiced .guide .voice .fill) 1 = true ∧ interpreterAvailable v 1 = true ∧
        interpreterAvailable (lost 1 f) 1 = false ∧ guideAvailable (lost 1 f) 1 = true) ∧
      (guideAvailable (lost 0 (voiced .guide .voice .fill)) 1 = false ∧
        interpreterAvailable (lost 0 (lost 1 v)) 1 = false ∧ guideAvailable (lost 0 (lost 1 v)) 1 = false ∧
        v.programs[1].pace = .following ∧ (voiced .interpreter .voice .fill).programs[1].pace = .fill) ∧
      (interpreterAvailable (lost 1 v) 1 = false ∧ guideAvailable (lost 1 v) 1 = true ∧
        guideOf (lost 1 v) 1 = some 0 ∧ (lost 1 v).programs[1].floor.cursor = some 5 ∧
        ∀ e ∈ (lost 1 v).sources[0].store, e.seq ≠ 5 + 1) ∧
      (f.programs[1].cond = .fallback ∧ f.programs[1].interpreter = some 1 ∧ interpreterAvailable f 1 = true ∧
        guideOf f 1 ≠ some 1 ∧ overlaySource f 1 ≠ some 1 ∧
        f.sources[1].store = [] ++ [⟨5, zeroBlock, 700⟩] ∧ (∀ x ∈ f.sources[1].store, x.seq ≠ 5 + 1) ∧
        guideOf f 1 = some 0 ∧ overlaySource f 1 ≠ some 0 ∧
        guideOf (f.modTour 0 fun r => { r with guide := none }) 1 = none) := by
  decide +kernel

/-- A cursor one behind and an absent one, with two entries in a row across the wrap; a DORMANT program, one in FILL,
another lead, and a cursor two behind. -/
theorem witness_ArrivalMixesBlocks :
    let s := ((mixing .following).modSource 0 fun r =>
      { r with store := [⟨255, zeroBlock, 0⟩, ⟨0, zeroBlock, 0⟩, ⟨2, zeroBlock, 0⟩] }).modProgram 0 fun r =>
        { r with lead := { r.lead with cursor := some 254 } }
    demo.programs[0].state ≠ .active ∧ (mixing .fill).programs[0].pace = .fill ∧ leadSource s 0 ≠ some 1 ∧
      ((mixing .following).programs[0].lead.cursor = some 5 ∧ (7 : Seq) ≠ 5 + 1) ∧
      s.programs[0].state = .active ∧ s.programs[0].pace = .following ∧ leadSource s 0 = some 0 ∧
      floorSource s 0 ≠ some 0 ∧ overlaySource s 0 ≠ some 0 ∧ s.sources[0].store.length ≤ 4 ∧
      (s.programs[0].lead.cursor = some 254 ∧ (255 : Seq) = 254 + 1) ∧
      (∀ j, j ≤ 1 → ∃ e ∈ s.sources[0].store, e.seq = 255 + BitVec.ofNat 8 j) ∧
      (∀ e ∈ s.sources[0].store, e.seq ≠ 255 + BitVec.ofNat 8 (1 + 1)) := by decide +kernel

/-- A base program, an INTERPRETER program in VOICE and one in FALLBACK, each without and with an announcement over
it; a LINKED program with floor step 0, and one with another. Takes that find an entry, and that find none; the
overlay's cursor absent, and present. -/
theorem witness_BlockIsMixedAndDelivered :
    let overlaid (p : ProgNo) (s : State) : State := (s.setAnnouncement 3 (some (announcement .on))).modProgram p
      fun r => { r with overlayAnn := some 3 }
    let v := voiced .interpreter .voice .following
    let f := voiced .interpreter .fallback .following
    let l := v.modProgram 2 fun r =>
      { r with mode := .linked, target := some 1, state := .active, pace := .following, floorStep := 0 }
    (v.programs[0].mode = .guide ∧ guideOf v 0 = some 0) ∧
      (guideOf v 1 = some 0 ∧ v.programs[1].mode = .interpreter ∧ v.programs[1].cond = .voice ∧
        v.programs[1].interpreter = some 1 ∧ v.programs[1].floorStep ≠ 0 ∧
        (v.modProgram 1 fun r => { r with floorStep := 0 }).programs[1].floorStep = 0) ∧
      (f.programs[1].mode = .interpreter ∧ f.programs[1].cond = .fallback) ∧
      (guideOf l 2 = some 0 ∧ l.programs[2].mode = .linked ∧ l.programs[2].floorStep = 0 ∧
        l.gains[(0 : GainStep)].value = 0 ∧
        (v.modProgram 1 fun r => { r with mode := .linked }).programs[1].floorStep ≠ 0) ∧
      (v.programs[1].overlayAnn = none ∧ (overlaid 1 v).programs[1].overlayAnn = some 3 ∧
        (overlaid 1 v).announcements[3] = some (announcement .on) ∧ (announcement .on).slot ≠ 0 ∧
        (overlaid 1 v).programs[1].interpreter ≠ some (announcement .on).slot) ∧
      ((overlaid 1 v).programs[1].overlay.cursor = none ∧ takeNewest v.sources[2].store = some ⟨5, zeroBlock, 700⟩ ∧
        takeOldestAfter v.sources[2].store (some 4) = some ⟨5, zeroBlock, 700⟩ ∧
        takeOldestAfter v.sources[2].store (some 5) = none ∧ takeBySequence v.sources[1].store 5 ≠ none ∧
        takeBySequence v.sources[1].store 6 = none) ∧
      (l.programs[1].mode ≠ .linked ∧ l.programs[2].state = .active ∧
        l.programs[2].pace = .following ∧ l.programs[2].target = some 1 ∧ l.programs[3].mode ≠ .linked) ∧
      ((∀ d : CarrierNo, (carrying busy []).galleries[2].carriers[d].state ≠ .live) ∧
        (carrying busy []).galleries[1].carriers[7].state = .live ∧
        (carrying busy []).galleries[1].carriers[7].program = some 29 ∧
        ∀ d : CarrierNo, d < 7 → (carrying busy []).galleries[1].carriers[d].program ≠ some 29) := by decide +kernel

/-- Behind the cursor 5: entries 127 and 0 behind it, and one 128 behind; a source with no reader; an overlay, a floor
and a lead bound to a source. -/
theorem witness_FramesAreConvertedPlacedAndRemoved_removed :
    let gone : List Entry := [⟨134, zeroBlock, 0⟩, ⟨5, zeroBlock, 0⟩]
    let r := (mixing .fill).modSource 0 fun x => { x with store := gone ++ [⟨133, zeroBlock, 0⟩] }
    let v := ((voiced .interpreter .voice .following).setAnnouncement 3 (some (announcement .on))).modProgram 2
      fun x => { x with overlayAnn := some 3 }
    readersOf r 0 = [0] ∧ (r.programs[0].state = .active ∧ r.programs[0].mode = .guide ∧ guideOf r 0 = some 0) ∧
      cursorOn r 0 0 = some 5 ∧ (∀ e ∈ gone, ((5 : Seq) - e.seq).toNat ≤ 127) ∧
      ¬ ((5 : Seq) - 133).toNat ≤ 127 ∧ (∀ q : ProgNo, demo.programs[q].state ≠ .active) ∧
      overlaySource v 2 = some 2 ∧
      (overlaySource v 1 ≠ some 0 ∧ floorSource v 1 = some 0 ∧ leadSource v 1 ≠ some 0) ∧
      (overlaySource v 1 ≠ some 1 ∧ floorSource v 1 ≠ some 1 ∧ leadSource v 1 = some 1) := by decide +kernel

/-- An entry with this sequence. -/
def entry (n : Seq) : Entry := ⟨n, zeroBlock, 0⟩

/-- Behind the cursor 5 and 128 on, neither of which is after it; then 1 and 127 on. An entry of the sequence 6 and of
none. A store with nothing after the cursor. -/
theorem witness_FramesAreConvertedPlacedAndRemoved_taken :
    let s (store : List Entry) : State := demo.modSource 0 fun r => { r with store := store }
    (s [entry 5, entry 133, entry 6]).sources[0].store = [entry 5, entry 133] ++ entry 6 :: [] ∧
      (s [entry 5, entry 133, entry 132]).sources[0].store = [entry 5, entry 133] ++ entry 132 :: [] ∧
      (∀ x ∈ [entry 5, entry 133], ¬ (1 ≤ (x.seq - 5).toNat ∧ (x.seq - 5).toNat ≤ 127) ∧ x.seq ≠ 6) ∧
      ((entry 6).seq - 5).toNat = 1 ∧ ((entry 132).seq - 5).toNat = 127 ∧ (entry 6).seq = 6 := by decide +kernel

/-! ### Witnesses: writes of the tour desk, and selection -/

/-- A running hub asked to write these operands on L0. -/
def writing (s : State) (operands : List Byte) : State :=
  { s with requests := [⟨0, requestPayload 7 2 operands⟩] }

theorem writing_serving (s : State) (operands : List Byte) (h : s.phase = .running) :
    Serving (writing s operands) 0 (requestPayload 7 2 operands) [] := ⟨h, rfl⟩

/-- Both ends of each range and what lies past them; slot 0 as the guide of an OPEN tour, slot 1 free of any
reference, slot 2 announcing; an id that another slot holds, the id held, a new one, and none. -/
theorem witness_WriteEntrySetsASource :
    let s := guiding [hearing 400 .inside] []
    let a := demo.setAnnouncement 0 (some (announcement .on))
    (∀ operands, Serving (writing s operands) 0 (requestPayload 7 2 operands) [] ∧
        Serving (writing a operands) 0 (requestPayload 7 2 operands) []) ∧
      (15 ≤ 15 ∧ 15 < 16 ∧ 1 ≤ 1 ∧ 1 < 2 ∧ 3 < 4 ∧ 65534 < 65535 ∧ 65535 ≠ 0xFFFFFFFF ∧ 1 ≤ 65534) ∧
      (s.tours[0].state = .opened ∧ s.tours[0].guide = some 0) ∧
      (a.announcements[0] = some (announcement .on) ∧ (announcement .on).slot = 2 ∧
        (announcement .on).state = .on) ∧
      (SourceRole.announcer ≠ s.sources[0].role ∧ s.sources[0].role = .guide) ∧
      (demo.sources[1].id = some (BitVec.ofNat 16 65534) ∧ demo.sources[0].id = some (BitVec.ofNat 16 1)) ∧
      (∀ j : SourceSlot, j ≠ 1 → demo.sources[j].id ≠ some (BitVec.ofNat 16 65533)) ∧
      (∀ t : TourNo, demo.tours[t].state ≠ .opened) ∧
      (∀ q : ProgNo, demo.programs[q].mode ≠ .interpreter) ∧ (∀ n : AnnNo, demo.announcements[n] = none) :=
  ⟨fun _ => ⟨writing_serving _ _ rfl, writing_serving _ _ rfl⟩, by decide +kernel⟩

/-- Class 3 and 4, with two programs of tour 0 waiting; 15 and 16; yes, and a value that is neither; a DORMANT, an
ACTIVE, a base and a targeted program; an interpreter that is free, one that another program has, and a guide. -/
theorem witness_WriteEntrySetsATourOrAProgram :
    let s := ((carrying busy [⟨0, 0⟩, ⟨95, 0⟩]).modProgram 0 fun r => { r with wanted := true }).modProgram 95
      fun r => { r with wanted := true }
    let v := voiced .interpreter .voice .following
    let l := demo.modProgram 2 fun r => { r with mode := .linked, target := some 1 }
    (∀ operands, Serving (writing s operands) 0 (requestPayload 7 2 operands) [] ∧
        Serving (writing v operands) 0 (requestPayload 7 2 operands) [] ∧
        Serving (writing l operands) 0 (requestPayload 7 2 operands) []) ∧
      (3 ≤ 3 ∧ 3 < 4 ∧ 15 ≤ 15 ∧ 15 < 16 ∧ 1 ≤ 1 ∧ 1 < 2) ∧
      (s.galleries[1].waitList.Pairwise (fun x y => ranksAbove s x.program y.program = true) ∧
        (∀ w ∈ s.galleries[1].waitList, s.programs[w.program].wanted = true)) ∧
      (Settled demo 1 ∧ demo.programs[1].target = none) ∧
      (langOf 0 = 0 ∧ langOf 1 ≠ 0 ∧ v.programs[1].state = .active ∧
        v.programs[1].interpreter ≠ some 0 ∧ v.sources[0].role ≠ .interpreter ∧
        v.programs[1].mode = .interpreter ∧ v.programs[1].interpreter = some 1) ∧
      (demo.programs[1].state ≠ .active ∧ demo.sources[1].role = .interpreter ∧ demo.sources[1].state ≠ .unused ∧
        (∀ q : ProgNo, demo.programs[q].mode ≠ .interpreter)) ∧
      (l.programs[2].mode = .linked ∧ l.programs[2].target = some 1 ∧ l.programs[95].mode ≠ .linked ∧
        l.programs[1].state ≠ .active ∧ ∀ x : ProgNo, x ≠ 3 → l.programs[x].target ≠ some 3) :=
  ⟨fun _ => ⟨writing_serving _ _ rfl, writing_serving _ _ rfl, writing_serving _ _ rfl⟩, by
    unfold Settled; decide +kernel⟩

/-- The code 4; a write that leaves no DESK port; a DOWN port, an UP one that is UNUSED, a GALLERY, a RACK and another
DESK, and the desk's own, with another DESK port left and with none; a grant limit of 1 with two grants. -/
theorem witness_WriteEntryChangesARoleOrAGrantLimit :
    let lone := demo.modPort 6 fun e => { e with role := .unused }
    let twin := demo.modPort 6 fun e => { e with link := .up }
    let d := docked .dockedCharging none
    let s := { (racked d).modRack 2 fun e => { e with grants := [6, 5] } with
      receivers := (racked d).receivers.set 5 ⟨some { d with charging := true }, 1⟩ }
    (∀ operands, Serving (writing demo operands) 0 (requestPayload 7 2 operands) [] ∧
        Serving (writing lone operands) 0 (requestPayload 7 2 operands) [] ∧
        Serving (writing twin operands) 0 (requestPayload 7 2 operands) [] ∧
        Serving (writing s operands) 0 (requestPayload 7 2 operands) []) ∧
      3 < 4 ∧ (∀ x : PortNo, x ≠ 0 → lone.ports[x].role ≠ .desk) ∧ demo.ports[6].role = .desk ∧
      (demo.ports[4].link = .down ∧ demo.ports[4].role = .gallery) ∧
      (demo.ports[3].link = .up ∧ demo.ports[3].role = .unused) ∧
      (demo.ports[1].link = .up ∧ demo.ports[1].role = .gallery) ∧
      (demo.ports[2].link = .up ∧ demo.ports[2].role = .rack) ∧
      (twin.ports[6].link = .up ∧ twin.ports[6].role = .desk ∧ twin.ports[0].role = .desk) ∧
      (demo.ports[0].link = .up ∧ demo.ports[0].role = .desk) ∧
      s.racks[2].grants.Nodup ∧ max 1 (min 40 1) ≤ s.racks[2].grants.length ∧
      s.racks[2].grants.length ≤ max 1 (min 40 2) ∧
      s.racks[2].grants = [6] ++ [5] ∧ ([6] : List RecNo).length = max 1 (min 40 1) ∧
      s.receivers[5].data = some { d with charging := true } ∧ d.place = some (2, 3) :=
  ⟨fun _ => ⟨writing_serving _ _ rfl, writing_serving _ _ rfl, writing_serving _ _ rfl,
    writing_serving _ _ rfl⟩, by decide +kernel⟩

/-- Two orders that want two receivers each, and three in the pool: the second order gets one. -/
theorem witness_SelectionServesOrdersInTurn :
    let older : OutfitOrder := ⟨65535, 0, 0, 2, 0, 0, 0⟩
    let o : OutfitOrder := ⟨1, 23, 3, 2, 0, 0, 0⟩
    let s := { demo with
      outfits := [older, o], pool := [5, 6, 319]
      receivers := ((demo.receivers.set 5 ⟨some (docked .dockedReady none), 1⟩).set 6
        ⟨some (docked .dockedReady none), 1⟩).set 319 ⟨some (docked .dockedReady none), 1⟩ }
    s.outfits = [older] ++ o :: [] ∧ (s.outfits.map (·.number)).Nodup ∧ s.pool.Nodup ∧
      (∀ r ∈ s.pool, s.receivers[r].data ≠ none) ∧
      (s.pool.drop older.shortfall).take o.shortfall = [319] := by decide +kernel

/-! ### Steps on a small state, with results from the spec -/

/-- The state after a command. -/
def after (c : Instr) (s : State) : State :=
  match exec c s with
  | .next t => t
  | .fault _ | .refused _ => s

/-- R21 and R154: OPEN_TOUR of tour 23 with slot 0 and class 3; the answer is OK. -/
theorem test_openTour :
    let t := after .openTour (asked 4 [23, 0, 3, 0])
    t.tours[23].state = .opened ∧ t.tours[23].guide = some 0 ∧ t.tours[23].priority = 3 ∧
      t.ports[0].line.map TxFrame.kindCode = some 0x07 := by decide +kernel

/-- R49: a gain of 40000 is held as 32767. -/
theorem test_writeGain :
    (after .writeEntry (asked 2 ([4, 0, 0, 15, 1, 1] ++ put32 40000))).gains[15] = ⟨32767, 1⟩ := by
  decide +kernel

set_option maxRecDepth 20000 in
/-- R5, R4: a frame of sequence 6 follows sequence 5; its store then holds both. -/
theorem test_voiceFrame :
    let f := voiceFrame 65534 6 60 1 (List.replicate 128 1)
    let t := after (.voiceFrame 1 f) demo
    t.sources[1].newest = some 6 ∧ t.sources[1].lostDeadline = some 1100 ∧
      t.sources[1].store.map (·.seq) = [5, 6] := by decide +kernel

set_option maxRecDepth 20000 in
/-- R73, R75, R78: a guide first heard at level 50 makes a record of est8 400, which is IN. -/
theorem test_firstObservation :
    let f := voiceFrame 1 5 50 1 (List.replicate 128 1)
    (after (.voiceFrame 1 f) demo).hearing.map (fun r => (r.est8, r.comparator)) = [(400, .inside)] := by
  decide +kernel

/-- R125: an undocked KEYED receiver is ISSUED, with the loan limit of 240 minutes. -/
theorem test_undock :
    ((after (.undock 2 (reportFrame 2 3 77 0)) (racked (docked .keyed (some 0)))).receivers[5].data.map
      fun d => (d.state, d.loanDeadline)) = some (.issued, some 14400900) := by decide +kernel

/-- R149: the ninth request is answered BUSY. -/
theorem test_busy :
    let t := after (.controlRequest 0 (envelope 0x06 [0, 7, 10, 0]))
      { demo with requests := List.replicate 8 ⟨0, []⟩ }
    t.ports[0].line = some (.response 7 10 .busy []) ∧ t.requests.length = 8 := by decide +kernel

/-- R29, R96: two programs of tour 0 wait before program 4; the class of tour 0 falls below tour 1's. -/
theorem test_writeTour_moves_the_wait_list :
    let s := ({ carrying busy [⟨0, 0⟩, ⟨2, 0⟩, ⟨4, 0⟩] with
      requests := [⟨0, requestPayload 7 2 (writeOne 2 0 3 0)⟩] }.modTour 0 fun r =>
        { r with priority := 2 }).modTour 1 fun r => { r with priority := 1 }
    let t := after .writeEntry ((s.modProgram 0 fun r => { r with wanted := true }).modProgram 2 fun r =>
      { r with wanted := true })
    t.galleries[1].waitList.map (·.program) = [4, 0, 2] := by decide +kernel

/-- R14, R68: an announcement ends over programs 0 and 1, of which 1 has taken sequence 4. Program 0 leaves first, and
the store then loses the entry that its last reader has passed. -/
theorem test_endDeadline_trims_the_announcer :
    let s := ((voiced .interpreter .voice .following).setAnnouncement 0 (some (announcement .on))).modProgram 1
      fun r => { r with overlayAnn := some 0, overlay := { r.overlay with cursor := some 4 } }
    let t := after (.endDeadlineExpiry 0) ((s.modProgram 0 fun r => { r with overlayAnn := some 0 }).modSource 2
      fun r => { r with store := [⟨4, zeroBlock, 600⟩, ⟨5, zeroBlock, 700⟩] })
    t.announcements[0] = none ∧ t.programs[1].overlayAnn = none ∧
      t.sources[2].store.map (·.seq) = [5] := by decide +kernel

end Sys2Proof.Tests
end

section
/-! The frame stores (chapter 1): classification, conversion, placing, readers, removal and takes. -/

namespace Sys2Proof.Machine

/-! ### Classification (R4) -/

/-- A take by sequence finds an entry exactly when one of the sequence is present (R13). -/
theorem isSome_takeBySequence {store : List Entry} {n : Seq} :
    (takeBySequence store n).isSome = true ↔ ∃ e ∈ store, e.seq = n := by
  simp [takeBySequence, List.find?_isSome]

theorem classify_of_newest_none {r : Source} {seq : Seq} (h : r.newest = none) :
    classify r seq = .accepted := by simp only [classify, h]

theorem classify_of_near {r : Source} {seq n : Seq} (h : r.newest = some n)
    (hd : 1 ≤ (seq - n).toNat) (hd' : (seq - n).toNat ≤ 127) : classify r seq = .accepted := by
  have hc : 1 ≤ seqDistance seq n ∧ seqDistance seq n ≤ 127 := ⟨hd, hd'⟩
  simp only [classify, h, if_pos hc]

/-- A frame at distance 0, or at one of 128 and more, is not accepted: an entry of its sequence decides. -/
theorem classify_of_not_near {r : Source} {seq n : Seq} (h : r.newest = some n)
    (hd : ¬ (1 ≤ (seq - n).toNat ∧ (seq - n).toNat ≤ 127)) :
    classify r seq =
      if (seq - n).toNat = 0 ∨ (takeBySequence r.store seq).isSome = true then .duplicate else .late := by
  have hc : ¬ (1 ≤ seqDistance seq n ∧ seqDistance seq n ≤ 127) := hd
  simp only [classify, h, if_neg hc]
  rfl

/-- A frame that is duplicate or late by its distance is not accepted. -/
theorem classify_ne_accepted {r : Source} {seq n : Seq} (h : r.newest = some n)
    (hd : seq = n ∨ 128 ≤ (seq - n).toNat) : classify r seq ≠ .accepted := by
  have hn : ¬ (1 ≤ (seq - n).toNat ∧ (seq - n).toNat ≤ 127) := by
    rcases hd with rfl | hd
    · simp
    · omega
  rw [classify_of_not_near h hn]
  split <;> simp

/-- Settles O20: the distance to the newest sequence decides, and beyond 127 an entry of the sequence. -/
theorem voiceFrameIsClassified : Obligations.VoiceFrameIsClassified := by
  unfold Obligations.VoiceFrameIsClassified
  refine fun r seq => ⟨classify_of_newest_none, fun n hn => ⟨fun hs => ?_, fun h1 h2 => classify_of_near hn h1 h2,
    fun hd he => ?_, fun hd he => ?_⟩⟩
  · subst hs
    rw [classify_of_not_near hn (by simp), if_pos (.inl (by simp))]
  · rw [classify_of_not_near hn (by omega), if_pos (.inr (isSome_takeBySequence.mpr he))]
  · have hnone : ¬ (takeBySequence r.store seq).isSome = true := fun h =>
      let ⟨e, hm, hq⟩ := isSome_takeBySequence.mp h
      he e hm hq
    rw [classify_of_not_near hn (by omega), if_neg (by rintro (h0 | h0); omega; exact hnone h0)]

/-! ### Sample conversion (R8) -/

theorem byteAt_lt (bs : List Byte) (i : Nat) : byteAt bs i < 256 := (bs.getD i 0).isLt

theorem wordAt_lt (bs : List Byte) (i : Nat) : wordAt bs i < 65536 := by
  have h1 := byteAt_lt bs i
  have h2 := byteAt_lt bs (i + 1)
  unfold wordAt; omega

theorem toNat_convertSamples_s16b (bytes : List Byte) (i : Fin 64) :
    ((convertSamples .s16b bytes)[i]).toNat =
      byteAt bytes (2 * i.val) * 256 + byteAt bytes (2 * i.val + 1) := by
  have h := wordAt_lt bytes (2 * i.val)
  simp only [convertSamples, Fin.getElem_fin, Vector.getElem_ofFn, BitVec.toNat_ofNat]
  exact Nat.mod_eq_of_lt h

theorem toNat_convertSamples_s16l (bytes : List Byte) (i : Fin 64) :
    ((convertSamples .s16l bytes)[i]).toNat =
      byteAt bytes (2 * i.val + 1) * 256 + byteAt bytes (2 * i.val) := by
  have h1 := byteAt_lt bytes (2 * i.val)
  have h2 := byteAt_lt bytes (2 * i.val + 1)
  simp only [convertSamples, Fin.getElem_fin, Vector.getElem_ofFn, BitVec.toNat_ofNat]
  omega

/-- (b − 128) × 256 (Table 1-3): b − 128 is the signed reading of the byte with its top bit turned over. -/
theorem toInt_convertU8 (b : Byte) : (convertU8 b).toInt = ((b.toNat : Int) - 128) * 256 := by
  have hb := b.isLt
  have h128 : (128 : Byte).toNat = 128 := rfl
  simp only [convertU8, BitVec.toInt_eq_toNat_cond, BitVec.toNat_shiftLeft, BitVec.toNat_setWidth,
    BitVec.toNat_sub, h128, Nat.shiftLeft_eq]
  omega

theorem toInt_convertSamples_u8 (bytes : List Byte) (i : Fin 64) :
    ((convertSamples .u8 bytes)[i]).toInt = ((byteAt bytes i.val : Int) - 128) * 256 := by
  simp only [convertSamples, Fin.getElem_fin, Vector.getElem_ofFn, toInt_convertU8, byteAt]

/-! ### Placing an entry (R11) -/

/-- What of a store is within 127 behind a sequence, from the first such entry on. -/
def keptBehind (n : Seq) (store : List Entry) : List Entry :=
  store.dropWhile fun x => 127 < seqDistance n x.seq

theorem placeEntry_of_room {e : Entry} {store : List Entry} (h : (keptBehind e.seq store).length < 4) :
    placeEntry e store = keptBehind e.seq store ++ [e] := by
  have h' : ¬ Config.storeDepth ≤ (keptBehind e.seq store).length := by simp only [Config.storeDepth]; omega
  exact congrArg (· ++ [e]) (if_neg h')

theorem placeEntry_of_full {e : Entry} {store : List Entry} (h : 4 ≤ (keptBehind e.seq store).length) :
    placeEntry e store = (keptBehind e.seq store).drop 1 ++ [e] := by
  have h' : Config.storeDepth ≤ (keptBehind e.seq store).length := h
  exact congrArg (· ++ [e]) (if_pos h')

theorem keptBehind_suffix (n : Seq) (store : List Entry) : keptBehind n store <:+ store :=
  List.dropWhile_suffix _

/-- The list placed is some end of the store, with the entry behind it. -/
theorem placeEntry_eq_append (e : Entry) (store : List Entry) :
    ∃ kept, kept <:+ store ∧ placeEntry e store = kept ++ [e] := by
  by_cases h : (keptBehind e.seq store).length < 4
  · exact ⟨_, keptBehind_suffix _ _, placeEntry_of_room h⟩
  · exact ⟨_, (List.drop_suffix _ _).trans (keptBehind_suffix _ _), placeEntry_of_full (not_lt.mp h)⟩

/-- `dropWhile` cuts a list where its predicate first fails. -/
theorem dropWhile_append_of_cut {α : Type} {q : α → Bool} {old kept : List α} (ho : ∀ x ∈ old, q x = true)
    (hk : ∀ x ∈ kept.head?, q x = false) : (old ++ kept).dropWhile q = kept := by
  rw [List.dropWhile_append_of_pos ho]
  cases kept with
  | nil => rfl
  | cons x xs => rw [List.dropWhile_cons_of_neg]; simp [hk x rfl]

theorem keptBehind_of_cut {n : Seq} {old kept : List Entry} (ho : ∀ x ∈ old, 127 < (n - x.seq).toNat)
    (hk : ∀ x ∈ kept.head?, (n - x.seq).toNat ≤ 127) : keptBehind n (old ++ kept) = kept :=
  dropWhile_append_of_cut (fun x hx => decide_eq_true (ho x hx))
    fun x hx => decide_eq_false (not_lt.mpr (hk x hx))

/-! ### Readers and their cursors (R12, R38) -/

theorem mem_readersOf {s : State} {i : SourceSlot} {q : ProgNo} :
    q ∈ readersOf s i ↔ isReader s i q = true := by
  simp [readersOf, mem_fins]

theorem nodup_readersOf (s : State) (i : SourceSlot) : (readersOf s i).Nodup := by
  rw [readersOf, fins_eq_finRange]
  exact (List.nodup_finRange 96).filter _

/-- The reader list of R12, by the program's mode. -/
theorem isReader_iff {s : State} {i : SourceSlot} {q : ProgNo} :
    isReader s i q = true ↔ s.programs[q].state = .active ∧
      ((s.programs[q].mode = .guide ∧ guideOf s q = some i) ∨
        (s.programs[q].mode = .interpreter ∧
          (s.programs[q].interpreter = some i ∨ guideOf s q = some i)) ∨
        (s.programs[q].mode = .linked ∧ guideOf s q = some i) ∨ overlaySource s q = some i) := by
  rw [isReader]
  cases hm : s.programs[q].mode <;> simp [or_assoc]

theorem cursorOn_overlay {s : State} {i : SourceSlot} {p : ProgNo} (ho : overlaySource s p = some i) :
    cursorOn s i p = s.programs[p].overlay.cursor := by rw [cursorOn, if_pos ho]

theorem cursorOn_floor {s : State} {i : SourceSlot} {p : ProgNo} (ho : overlaySource s p ≠ some i)
    (hf : floorSource s p = some i) : cursorOn s i p = s.programs[p].floor.cursor := by
  rw [cursorOn, if_neg ho, if_pos hf]

theorem cursorOn_lead {s : State} {i : SourceSlot} {p : ProgNo} (ho : overlaySource s p ≠ some i)
    (hf : floorSource s p ≠ some i) (hl : leadSource s p = some i) :
    cursorOn s i p = s.programs[p].lead.cursor := by
  rw [cursorOn, if_neg ho, if_neg hf, if_pos hl]

/-! ### Removal (R14) -/

/-- A reader has passed an entry: its cursor is present and 0 to 127 behind (R14). -/
theorem passedBy_iff {n : Seq} {cursor : Option Seq} :
    passedBy n cursor = true ↔ ∃ c, cursor = some c ∧ (c - n).toNat ≤ 127 := by
  cases cursor with
  | none => simp [passedBy]
  | some c =>
    rw [passedBy, decide_eq_true_eq]
    exact ⟨fun h => ⟨c, rfl, h⟩, fun ⟨_, hc, h⟩ => Option.some.inj hc ▸ h⟩

/-- Without a reader nothing goes. -/
theorem applyRemoval_of_no_reader {s : State} {i : SourceSlot} (h : ∀ q, isReader s i q = false) :
    applyRemoval i s = s := by
  have hn : readersOf s i = [] := by simp [readersOf, h]
  simp [applyRemoval, hn]

/-- With a reader, the oldest entries go that every reader has passed. -/
theorem applyRemoval_of_reader {s : State} {i : SourceSlot} {q : ProgNo} (h : isReader s i q = true) :
    applyRemoval i s = s.modSource i fun r => { r with
      store := r.store.dropWhile fun e => (readersOf s i).all fun q => passedBy e.seq (cursorOn s i q) } := by
  have hn : ¬ ((readersOf s i).map (cursorOn s i)).isEmpty = true := by
    rw [List.isEmpty_iff, List.map_eq_nil_iff]
    exact List.ne_nil_of_mem (mem_readersOf.mpr h)
  simp only [applyRemoval, if_neg hn, List.all_map, Function.comp_def]

/-- The removal rule keeps a store from the first entry on that some reader has not passed. -/
theorem applyRemoval_of_cut {s : State} {i : SourceSlot} {gone kept : List Entry}
    (hs : s.sources[i].store = gone ++ kept) (hr : ∃ q, isReader s i q = true)
    (hg : ∀ e ∈ gone, ∀ q, isReader s i q = true → passedBy e.seq (cursorOn s i q) = true)
    (hk : ∀ e ∈ kept.head?, ∃ q, isReader s i q = true ∧ passedBy e.seq (cursorOn s i q) = false) :
    applyRemoval i s = { s with sources := s.sources.set i { s.sources[i] with store := kept } } := by
  obtain ⟨q, hq⟩ := hr
  rw [applyRemoval_of_reader hq]
  have hcut : s.sources[i].store.dropWhile
      (fun e => (readersOf s i).all fun q => passedBy e.seq (cursorOn s i q)) = kept := by
    rw [hs]
    refine dropWhile_append_of_cut (fun e he => ?_) fun e he => ?_
    · exact List.all_eq_true.mpr fun q hq => hg e he q (mem_readersOf.mp hq)
    · obtain ⟨q, hq, hp⟩ := hk e he
      exact List.all_eq_false.mpr ⟨q, mem_readersOf.mpr hq, by simp [hp]⟩
  simp only [State.modSource, hcut]

/-! ### Takes (R13) and concealment (R48) -/

/-- The entries that a take after a cursor may find: 1 to 127 beyond it (R13). -/
theorem isAfterCursor_iff {n c : Seq} :
    (decide (1 ≤ seqDistance n c) && decide (seqDistance n c ≤ 127)) = true ↔
      1 ≤ (n - c).toNat ∧ (n - c).toNat ≤ 127 := by
  rw [Bool.and_eq_true, decide_eq_true_eq, decide_eq_true_eq]; rfl

/-- The first member of which a predicate holds is found. -/
theorem find?_append_cons {α : Type} {q : α → Bool} {front back : List α} {x : α} (hx : q x = true)
    (hf : ∀ y ∈ front, q y = false) : (front ++ x :: back).find? q = some x := by
  rw [List.find?_append, List.find?_eq_none.mpr fun y hy => by simp [hf y hy]]
  simp [hx]

theorem takeBySequence_eq_none {store : List Entry} {c : Seq} (h : ∀ x ∈ store, x.seq ≠ c) :
    takeBySequence store c = none :=
  List.find?_eq_none.mpr fun x hx => by simpa using h x hx

theorem takeBySequence_append {front back : List Entry} {e : Entry} {c : Seq} (he : e.seq = c)
    (hf : ∀ x ∈ front, x.seq ≠ c) : takeBySequence (front ++ e :: back) c = some e :=
  find?_append_cons (by simpa using he) fun x hx => by simpa using hf x hx

theorem takeOldestAfter_eq_none {store : List Entry} {c : Seq}
    (h : ∀ x ∈ store, ¬ (1 ≤ (x.seq - c).toNat ∧ (x.seq - c).toNat ≤ 127)) :
    takeOldestAfter store (some c) = none :=
  List.find?_eq_none.mpr fun x hx => mt isAfterCursor_iff.mp (h x hx)

theorem takeOldestAfter_append {front back : List Entry} {e : Entry} {c : Seq}
    (h1 : 1 ≤ (e.seq - c).toNat) (h2 : (e.seq - c).toNat ≤ 127)
    (hf : ∀ x ∈ front, ¬ (1 ≤ (x.seq - c).toNat ∧ (x.seq - c).toNat ≤ 127)) :
    takeOldestAfter (front ++ e :: back) (some c) = some e :=
  find?_append_cons (isAfterCursor_iff.mpr ⟨h1, h2⟩) fun x hx =>
    Bool.eq_false_iff.mpr (mt isAfterCursor_iff.mp (hf x hx))

/-- A take that finds an entry moves the cursor to it, and the removal rule is applied (R13, R47). -/
theorem answerTake_some (p : ProgNo) (k : ReaderKind) (i : SourceSlot) (e : Entry) (s : State) :
    answerTake p k i (some e) s =
      (applyRemoval i (s.modProgram p fun r => r.setReader k
        ⟨some e.seq, .fresh, some (if s.sources[i].mute then zeroBlock else e.samples)⟩),
        if s.sources[i].mute then zeroBlock else e.samples) := rfl

/-- A take that finds none conceals (R48). -/
theorem answerTake_none (p : ProgNo) (k : ReaderKind) (i : SourceSlot) (s : State) :
    answerTake p k i none s =
      (s.modProgram p fun r => r.setReader k
        { r.reader k with conceal := (r.reader k).conceal.step }, concealed (s.programs[p].reader k)) :=
  Prod.ext rfl rfl

/-- Settles O21: R8, R11, R12, R14, R13 and R48 in turn, each by the lemmas above. -/
theorem framesAreConvertedPlacedAndRemoved : Obligations.FramesAreConvertedPlacedAndRemoved := by
  unfold Obligations.FramesAreConvertedPlacedAndRemoved
  refine ⟨fun bytes i _ => ⟨toNat_convertSamples_s16b bytes i, toNat_convertSamples_s16l bytes i,
    toInt_convertSamples_u8 bytes i⟩, fun e store hl => ?_, fun s i => ?_⟩
  · obtain ⟨kept, hk, hp⟩ := placeEntry_eq_append e store
    refine ⟨by rw [hp, List.dropLast_concat], by rw [hp, List.dropLast_concat]; exact hk,
      Laws.Keeps.length_placeEntry e store hl, ?_⟩
    rintro old kept rfl ho hk
    have hb := keptBehind_of_cut ho hk
    refine ⟨fun h => ?_, fun h => ?_⟩
    · rw [placeEntry_of_room (by rwa [hb]), hb]
    · rw [placeEntry_of_full (by rw [hb, h]), hb]
  · intro reads passed
    have hreads (q : ProgNo) : isReader s i q = true ↔ reads q := isReader_iff
    have hpassed (e : Entry) (q : ProgNo) : passedBy e.seq (cursorOn s i q) = true ↔ passed e q := passedBy_iff
    refine ⟨fun q => mem_readersOf.trans (hreads q), nodup_readersOf s i,
      fun q => ⟨cursorOn_overlay, fun ho _ hf => cursorOn_floor ho hf, cursorOn_lead⟩,
      fun hn => applyRemoval_of_no_reader fun q => Bool.eq_false_iff.mpr (mt (hreads q).mp (hn q)), ?_, ?_⟩
    · intro gone kept hs ⟨q, hq⟩ hg hk
      refine applyRemoval_of_cut hs ⟨q, (hreads q).mpr hq⟩
        (fun e he q hq => (hpassed e q).mpr (hg e he q ((hreads q).mp hq))) fun e he => ?_
      obtain ⟨q, hq, hp⟩ := hk e he
      exact ⟨q, (hreads q).mpr hq, Bool.eq_false_iff.mpr (mt (hpassed e q).mp hp)⟩
    · intro p e samples taken
      refine ⟨answerTake_some p .lead i e s, answerTake_some p .floor i e s, answerTake_some p .overlay i e s,
        ?_, rfl, rfl, fun c => ⟨takeBySequence_eq_none, takeOldestAfter_eq_none, fun front back hs => ?_⟩⟩
      · intro missing
        have hmissing (x : Reader) : { x with conceal := x.conceal.step } = missing x := by
          cases hc : x.conceal <;> simp only [missing, hc] <;> rfl
        simp only [answerTake_none, Program.setReader, Program.reader, hmissing, and_self]
      · rw [hs]
        exact ⟨takeBySequence_append, takeOldestAfter_append⟩

end Sys2Proof.Machine
end

section
/-! The bytes of requests and frames read back, and READ_ENTRY with the entries of SOURCE, TOUR and RACK. -/

namespace Sys2Proof.Machine

/-! ### Fields read back (11.1) -/

@[simp] theorem byteAt_cons_zero (b : Byte) (bs : List Byte) : byteAt (b :: bs) 0 = b.toNat := rfl

@[simp] theorem byteAt_cons_succ (b : Byte) (bs : List Byte) (i : Nat) :
    byteAt (b :: bs) (i + 1) = byteAt bs i := rfl

theorem byteAt_append_length (a b : List Byte) (i : Nat) : byteAt (a ++ b) (a.length + i) = byteAt b i := by
  simp [byteAt, List.getD_eq_getElem?_getD, List.getElem?_append_right]

theorem wordAt_append_length (a b : List Byte) (i : Nat) : wordAt (a ++ b) (a.length + i) = wordAt b i := by
  simp only [wordAt, Nat.add_assoc, byteAt_append_length]

@[simp] theorem wordAt_put16 (n : Nat) (bs : List Byte) (h : n < 65536) : wordAt (put16 n ++ bs) 0 = n := by
  simp only [wordAt, put16, List.cons_append, byteAt_cons_zero, byteAt_cons_succ, BitVec.toNat_ofNat]
  omega

@[simp] theorem wordAt_cons_succ (b : Byte) (bs : List Byte) (i : Nat) :
    wordAt (b :: bs) (i + 1) = wordAt bs i := rfl

@[simp] theorem longAt_put32 (n : Nat) (bs : List Byte) (h : n < 4294967296) :
    longAt (put32 n ++ bs) 0 = n := by
  simp only [longAt, wordAt, put32, put16, List.cons_append, List.nil_append, byteAt_cons_zero,
    byteAt_cons_succ, BitVec.toNat_ofNat]
  omega

@[simp] theorem byteAt_put8 (n : Nat) (bs : List Byte) (h : n < 256) : byteAt (put8 n ++ bs) 0 = n := by
  simp only [put8, List.cons_append, byteAt_cons_zero, BitVec.toNat_ofNat]
  omega

/-! ### The envelope read back (R177) -/

/-- An envelope is opened as the kind and the payload it was made of (R177). -/
theorem openEnvelope_envelope (kind : Byte) (payload : List Byte) (h : payload.length ≤ 1024) :
    openEnvelope (envelope kind payload) = some (kind, payload) := by
  have hlen : wordAt (envelope kind payload) 1 = payload.length := by
    simp only [envelope, List.cons_append, List.append_assoc]
    exact (wordAt_cons_succ _ _ 0).trans (wordAt_put16 _ _ (by omega))
  have hbody : (kind :: put16 payload.length ++ payload).length = 3 + payload.length := by
    simp; omega
  have htake : (envelope kind payload).take (3 + payload.length) =
      kind :: put16 payload.length ++ payload := by
    rw [envelope, ← hbody]; exact List.take_left
  have hcheck : wordAt (envelope kind payload) (3 + payload.length) =
      (frameCheck (kind :: put16 payload.length ++ payload)).toNat := by
    rw [envelope, ← hbody]
    exact (wordAt_append_length _ _ 0).trans
      ((congrArg (wordAt · 0) (List.append_nil _).symm).trans (wordAt_put16 _ [] (BitVec.isLt _)))
  have hframe : (envelope kind payload).length = payload.length + 5 := by
    simp [envelope]; omega
  simp only [openEnvelope, hlen, htake, hcheck, hframe]
  exact if_pos ⟨trivial, h, trivial⟩

/-! ### Requests read back (Table 11-7, R150) -/

@[simp] theorem requestTag_requestPayload (tag : BitVec 16) (kind : Nat) (o : List Byte) :
    requestTag (requestPayload tag kind o) = tag := by
  simp only [requestTag, requestPayload, List.append_assoc, wordAt_put16 _ _ tag.isLt, BitVec.ofNat_toNat,
    BitVec.setWidth_eq]

@[simp] theorem requestKind_requestPayload (tag : BitVec 16) (kind : Nat) (o : List Byte) :
    requestKind (requestPayload tag kind o) = BitVec.ofNat 8 kind := rfl

@[simp] theorem headerOk_requestPayload (tag : BitVec 16) (kind : Nat) (o : List Byte) :
    headerOk (requestPayload tag kind o) = true := by
  simp [headerOk, requestPayload, put16, put8]

@[simp] theorem operandsOf_requestPayload (tag : BitVec 16) (kind : Nat) (o : List Byte) :
    operandsOf (requestPayload tag kind o) = o := rfl

/-- A request at the head of the queue is served: its effects, the response to its port, what follows (R150). -/
theorem serveHead_of_serving {s : State} {p : PortNo} {tag : BitVec 16} {kind : Nat} {o : List Byte}
    {rest : List Request} {isRow : List Byte → Bool} {serve : PortNo → List Byte → State → Served}
    (hs : Serving s p (requestPayload tag kind o) rest)
    (hr : isRow (requestPayload tag kind o) = true) :
    serveHead isRow serve s =
      let x := serve p (requestPayload tag kind o) { s with requests := rest }
      .next (x.after (respond p (.response tag (BitVec.ofNat 8 kind) x.status x.result) x.state)) := by
  obtain ⟨hphase, hq⟩ := hs
  simp only [serveHead, running_of_running s hphase, hq, hr, if_true, requestTag_requestPayload,
    requestKind_requestPayload]

/-! ### READ_ENTRY (R152) -/

@[simp] theorem tableOf_code (t : Table) : tableOf t.code = some t := by cases t <;> rfl

theorem Table.code_lt (t : Table) : t.code < 256 := by cases t <;> decide

theorem Table.entries_le (t : Table) : t.entries ≤ 320 := by cases t <;> decide

theorem toFin_val {n : Nat} (i : Fin n) : toFin n i.val = some i := dif_pos i.isLt

/-- The operands of READ_ENTRY are read as they were laid out (Table 11-8). -/
theorem parseRead_requestPayload {tag : BitVec 16} {t : Table} {clear index : Nat} (hc : clear < 2)
    (hi : index < 65536) :
    parseRead (requestPayload tag 1 (put8 t.code ++ put8 clear ++ put16 index)) =
      some ⟨t.code, clear == 1, index⟩ := by
  have hlen : (put8 t.code ++ put8 clear ++ put16 index).length = 4 := rfl
  have h0 : byteAt (put8 t.code ++ put8 clear ++ put16 index) 0 = t.code := byteAt_put8 _ _ t.code_lt
  have h1 : byteAt (put8 t.code ++ put8 clear ++ put16 index) 1 = clear :=
    byteAt_put8 clear (put16 index) (by omega)
  have h2 : wordAt (put8 t.code ++ put8 clear ++ put16 index) 2 = index := wordAt_put16 index [] hi
  simp only [parseRead, headerOk_requestPayload, operandsOf_requestPayload, hlen, h0, h1, h2, hc, and_self,
    if_true]

/-- READ_ENTRY answers with the entry as it stands (R152). -/
theorem exec_readEntry {s : State} {p : PortNo} {rest : List Request} {tag : BitVec 16} {t : Table}
    {index : Nat} (hi : index < t.entries)
    (hs : Serving s p (requestPayload tag 1 (put8 t.code ++ put8 0 ++ put16 index)) rest) :
    exec .readEntry s = .next (respond p
      (.response tag 1 .ok (entryBytes t index (entryFields s t index))) { s with requests := rest }) := by
  have hle := t.entries_le
  have hserve : serveRead p (requestPayload tag 1 (put8 t.code ++ put8 0 ++ put16 index))
      { s with requests := rest } =
      done (entryBytes t index (entryFields s t index)) { s with requests := rest } := by
    simp only [serveRead, parseRead_requestPayload (by decide : 0 < 2) (by omega : index < 65536), readEntry,
      tableOf_code, Nat.not_le.mpr hi, if_false]
    cases t <;> rfl
  exact (serveHead_of_serving hs rfl).trans (by simp only [hserve]; rfl)

/-- A read-and-clear of a program answers with the entry as it stood, and then clears the CLIP fields (R35). -/
theorem exec_readEntry_clear {s : State} {p : PortNo} {rest : List Request} {tag : BitVec 16} {q : ProgNo}
    (hs : Serving s p (requestPayload tag 1 (put8 3 ++ put8 1 ++ put16 q.val)) rest) :
    exec .readEntry s = .next (respond p
      (.response tag 1 .ok (entryBytes .program q.val (programFields s.programs[q])))
      (clearClip q { s with requests := rest })) := by
  have hq := q.isLt
  have hserve : serveRead p (requestPayload tag 1 (put8 3 ++ put8 1 ++ put16 q.val))
      { s with requests := rest } =
      done (entryBytes .program q.val (programFields s.programs[q]))
        (clearClip q { s with requests := rest }) := by
    have hparse : parseRead (requestPayload tag 1 (put8 3 ++ put8 1 ++ put16 q.val)) =
        some ⟨Table.program.code, true, q.val⟩ :=
      parseRead_requestPayload (t := .program) (clear := 1) (by decide) (by omega)
    have he : ¬ Table.program.entries ≤ q.val := Nat.not_le.mpr hq
    simp only [serveRead, hparse, readEntry, tableOf_code, he, if_false, entryResult, entryFields, toFin_val]
    rfl
  exact (serveHead_of_serving hs rfl).trans (by simp only [hserve]; rfl)

/-! ### Entries byte by byte (11.4) -/

@[simp] theorem fieldBytes_present (code n : Nat) : fieldBytes code (present n) = put8 code ++ put32 n := rfl

@[simp] theorem fieldBytes_single (code : Nat) (v : Option Nat) :
    fieldBytes code (.single v) = put8 code ++ put32 (v.getD 0xFFFFFFFF) := rfl

@[simp] theorem fieldBytes_items {α : Type} (code : Nat) (xs : List α) (f : α → List Nat) :
    fieldBytes code (.items (xs.map f)) =
      put8 code ++ put16 xs.length ++ xs.flatMap fun x => (f x).flatMap put32 := by
  simp only [fieldBytes, List.length_map, List.map_map, List.flatMap, Function.comp_def]

/-- A SOURCE entry (R17). -/
theorem entryBytes_source (i : Nat) (e : Source) : entryBytes .source i (sourceFields e) =
    put8 1 ++ put16 i ++ put8 10 ++ (put8 1 ++ put32 ((e.id.map (·.toNat)).getD 0xFFFFFFFF)) ++
      (put8 2 ++ put32 e.role.code) ++ (put8 3 ++ put32 e.gainStep.val) ++ (put8 4 ++ put32 (yesNo e.mute)) ++
      (put8 5 ++ put32 e.state.code) ++ (put8 6 ++ put32 ((e.newest.map (·.toNat)).getD 0xFFFFFFFF)) ++
      (put8 7 ++ put32 (if e.state = .live then (e.lostDeadline.map (·.toNat)).getD 0xFFFFFFFF
        else 0xFFFFFFFF)) ++
      (put8 8 ++ put32 e.generation.toNat) ++ (put8 9 ++ put32 e.store.length) ++
      (put8 10 ++ put32 (((e.store.getLast?.map (·.stamp)).map (·.toNat)).getD 0xFFFFFFFF)) := by
  have hlost : (((if e.state = .live then e.lostDeadline else none).map (·.toNat)).getD 0xFFFFFFFF) =
      if e.state = .live then (e.lostDeadline.map (·.toNat)).getD 0xFFFFFFFF else 0xFFFFFFFF := by
    split <;> rfl
  simp [entryBytes, sourceFields, Table.code, wordField, seqField, clockField, takeNewest, hlost]

/-- A TOUR entry (R23). -/
theorem entryBytes_tour (i : Nat) (e : Tour) : entryBytes .tour i (tourFields e) =
    put8 2 ++ put16 i ++ put8 6 ++ (put8 1 ++ put32 e.state.code) ++
      (put8 2 ++ put32 ((e.guide.map (·.val)).getD 0xFFFFFFFF)) ++ (put8 3 ++ put32 e.priority.val) ++
      (put8 4 ++ put16 e.gallerySet.length ++ e.gallerySet.flatMap fun g => put32 g.val) ++
      (put8 5 ++ put32 (yesNo e.guideFrozen)) ++ (put8 6 ++ put32 e.generation.toNat) := by
  simp [entryBytes, tourFields, Table.code, numberField]

/-- The bytes of a key order's item (Table 11-10). -/
def keyItemBytes (flying : Bool) (o : KeyOrder) : List Byte := (keyItem flying o).flatMap put32

theorem keyItemBytes_eq (flying : Bool) :
    keyItemBytes flying = fun o => ((keyItem flying o).map put32).flatten := rfl

/-- The bytes of a key queue's items: the head is marked while it is in flight (R148). -/
def keyQueueBytes (inFlight : Bool) : List KeyOrder → List Byte
  | [] => []
  | o :: waiting => keyItemBytes inFlight o ++ waiting.flatMap (keyItemBytes false)

/-- The field of a key queue: its orders, the one in flight before those that wait. -/
theorem fieldBytes_keyQueue (code : Nat) (e : Rack) :
    fieldBytes code (.items (e.flying.toList.map (keyItem true) ++ e.waiting.map (keyItem false))) =
      put8 code ++ put16 e.keyQueue.length ++ keyQueueBytes e.inFlight e.keyQueue := by
  cases hf : e.inFlight <;> cases hq : e.keyQueue <;>
    simp [fieldBytes, Rack.flying, Rack.waiting, keyQueueBytes, hf, hq, List.flatMap, Function.comp_def,
      keyItemBytes_eq]

/-- A RACK entry (R148). -/
theorem entryBytes_rack (s : State) (i : Nat) (e : Rack) : entryBytes .rack i (rackFields s e) =
    put8 9 ++ put16 i ++ put8 13 ++ (put8 1 ++ put32 (yesNo e.online)) ++ (put8 2 ++ put32 (yesNo e.inventory)) ++
      (put8 3 ++ put32 ((e.inventoryDeadline.map (·.toNat)).getD 0xFFFFFFFF)) ++ (put8 4 ++ put32 e.grantLimit) ++
      (put8 5 ++ put16 e.grants.length ++ e.grants.flatMap fun r => put32 r.val) ++
      (put8 6 ++ put16 e.chargeQueue.length ++ e.chargeQueue.flatMap fun r =>
        put32 r.val ++ put32 (chargeClass s r)) ++
      (put8 7 ++ put16 e.keyQueue.length ++ keyQueueBytes e.inFlight e.keyQueue) ++
      (put8 8 ++ put32 (yesNo e.inFlight)) ++ (put8 9 ++ put32 e.attempts) ++
      (put8 10 ++ put32 ((e.keyDeadline.map (·.toNat)).getD 0xFFFFFFFF)) ++
      (put8 11 ++ put16 e.abandoned.length ++ e.abandoned.flatMap fun k => put32 k.val) ++
      (put8 12 ++ put16 40 ++ (List.finRange 40).flatMap fun k =>
        put32 k.val ++ put32 e.slots[k].occupant.value ++ put32 (yesNo e.slots[k].unkeyOwed)) ++
      (put8 13 ++ put32 e.generation.toNat) := by
  simp [entryBytes, rackFields, Table.code, clockField, fieldBytes_keyQueue, fins_eq_finRange]

theorem entryFields_source (s : State) (i : SourceSlot) :
    entryFields s .source i.val = sourceFields s.sources[i] := by simp only [entryFields, toFin_val]; rfl

theorem entryFields_tour (s : State) (n : TourNo) : entryFields s .tour n.val = tourFields s.tours[n] := by
  simp only [entryFields, toFin_val]; rfl

theorem entryFields_rack (s : State) (g : PortNo) : entryFields s .rack g.val = rackFields s s.racks[g] := by
  simp only [entryFields, toFin_val]; rfl

/-- The class of a receiver in its charge queue (Table 11-10). -/
theorem chargeClass_eq (s : State) (r : RecNo) : chargeClass s r =
    if (s.receivers[r].data.any fun d => decide (d.battery < s.limits.critical)) = true then 1 else 2 := by
  unfold chargeClass isCritical
  cases s.receivers[r].data <;> rfl

/-- Settles O53: READ_ENTRY answers with the entry's fields, which the lemmas above spell out. -/
theorem readEntryReportsTheEntry : Obligations.ReadEntryReportsTheEntry := by
  unfold Obligations.ReadEntryReportsTheEntry
  intro s p rest tag
  refine ⟨fun t index hi hs => exec_readEntry hi hs, ?_, fun q hs => exec_readEntry_clear hs⟩
  intro field stamp flag
  refine ⟨fun i hs => ?_, fun n hs => ?_, fun g hs => ?_⟩
  · intro e
    have h := exec_readEntry (t := .source) i.isLt hs
    rw [entryFields_source, entryBytes_source] at h
    refine h.trans ?_
    cases s.sources[i].role <;> cases s.sources[i].state <;> rfl
  · intro e
    have h := exec_readEntry (t := .tour) n.isLt hs
    rw [entryFields_tour, entryBytes_tour] at h
    refine h.trans ?_
    cases s.tours[n].state <;> rfl
  · intro e item critical
    have h := exec_readEntry (t := .rack) g.isLt hs
    rw [entryFields_rack, entryBytes_rack] at h
    have hitem : item = keyItemBytes := by
      funext flying o
      cases o <;> simp only [item, keyItemBytes, keyItem, List.flatMap_cons, List.flatMap_nil, List.append_nil,
        List.append_assoc] <;> rfl
    clear_value item
    subst hitem
    simp only [chargeClass_eq] at h
    refine h.trans ?_
    cases s.racks[g].keyQueue <;> rfl

end Sys2Proof.Machine
end

section
/-! A VOICE_FRAME that arrives, and one that is noted at most, or only a hearing observation. -/

namespace Sys2Proof.Machine

/-! ### The frame taken apart (Table 11-2, R167) -/

/-- The payload of a voice frame (Table 11-2). -/
def voicePayload (id : BitVec 16) (seq : Seq) (level format : Nat) (samples : List Byte) : List Byte :=
  put16 id.toNat ++ put8 seq.toNat ++ put8 level ++ put8 format ++ samples

theorem voiceFrame_eq_envelope (id : BitVec 16) (seq : Seq) (level format : Nat) (samples : List Byte) :
    voiceFrame id seq level format samples = envelope 0x01 (voicePayload id seq level format samples) := rfl

/-- A voice frame is taken by a running port that is UP and of a role that carries voice (R167). -/
theorem receive_voiceFrame {s : State} {p : PortNo} (hp : PortIs s p .gallery ∨ PortIs s p .desk)
    (id : BitVec 16) (seq : Seq) (level format : Nat) {samples : List Byte} (hl : samples.length = 128) :
    receive p .voice (voiceFrame id seq level format samples) s =
      some (voicePayload id seq level format samples) := by
  have hlen : (voicePayload id seq level format samples).length = 133 := by simp [voicePayload, hl]
  have hup : s.ports[p].link = .up := by rcases hp with ⟨_, h, _⟩ | ⟨_, h, _⟩ <;> exact h
  have hrole : RxKind.voice.fitsRole s.ports[p].role = true := by
    rcases hp with ⟨_, _, h⟩ | ⟨_, _, h⟩ <;> rw [h] <;> rfl
  rw [receive, voiceFrame_eq_envelope, openEnvelope_envelope _ _ (by omega)]
  exact if_pos ⟨hup, rfl, by rw [hlen]; rfl, hrole⟩

/-- VOICE_FRAME on a port that takes it hands the payload to the source unit. -/
theorem exec_voiceFrame {s : State} {p : PortNo} (hp : PortIs s p .gallery ∨ PortIs s p .desk)
    (id : BitVec 16) (seq : Seq) (level format : Nat) {samples : List Byte} (hl : samples.length = 128) :
    exec (.voiceFrame p (voiceFrame id seq level format samples)) s =
      .next (voiceArrival p (voicePayload id seq level format samples) s) := by
  have hphase : s.phase = .running := by rcases hp with ⟨h, _⟩ | ⟨h, _⟩ <;> exact h
  change execVoiceFrame p _ s = _
  rw [execVoiceFrame, running_of_running s hphase, receive_voiceFrame hp id seq level format hl]

section
variable (id : BitVec 16) (seq : Seq) (level format : Nat) (samples : List Byte)

theorem wordAt_voicePayload :
    wordAt (voicePayload id seq level format samples) 0 = id.toNat :=
  wordAt_put16 _ _ id.isLt

theorem byteAt_voicePayload_seq :
    byteAt (voicePayload id seq level format samples) 2 = seq.toNat :=
  byteAt_put8 seq.toNat (put8 level ++ put8 format ++ samples) seq.isLt

theorem byteAt_voicePayload_level (h : level < 256) :
    byteAt (voicePayload id seq level format samples) 3 = level :=
  byteAt_put8 level (put8 format ++ samples) h

theorem byteAt_voicePayload_format (h : format < 256) :
    byteAt (voicePayload id seq level format samples) 4 = format :=
  byteAt_put8 format samples h

end

/-! ### The slot of an id (R1) -/

/-- The lowest number of which a predicate holds is the one found. -/
theorem find?_fins_eq_some {n : Nat} {q : Fin n → Bool} {i : Fin n} (hi : q i = true)
    (hlt : ∀ j < i, q j = false) : (fins n).find? q = some i := by
  rw [fins_eq_finRange, List.find?_eq_some_iff_getElem]
  refine ⟨hi, i.val, by simp, by simp, fun j hj => ?_⟩
  simp [hlt ⟨j, by omega⟩ hj]

theorem slotOf_of_holdsId {s : State} {id : BitVec 16} {i : SourceSlot} (h : HoldsId s id i) :
    slotOf s id = some i :=
  find?_fins_eq_some (beq_iff_eq.mpr h.1) fun j hj => beq_eq_false_iff_ne.mpr (h.2 j hj)

theorem slotOf_eq_none {s : State} {id : BitVec 16} (h : ∀ i : SourceSlot, s.sources[i].id ≠ some id) :
    slotOf s id = none :=
  List.find?_eq_none.mpr fun i _ => mt beq_iff_eq.mp (h i)

/-! ### What arrives (R3) -/

theorem sampleFormatOf_eq_none {n : Nat} (h : n = 0 ∨ 3 < n) : sampleFormatOf n = none := by
  rcases h with rfl | h
  · rfl
  · obtain ⟨m, rfl⟩ : ∃ m, n = m + 4 := ⟨n - 4, by omega⟩
    rfl

theorem exists_sampleFormatOf {n : Nat} (h1 : 1 ≤ n) (h3 : n ≤ 3) : ∃ f, sampleFormatOf n = some f := by
  interval_cases n <;> exact ⟨_, rfl⟩

section
variable {s : State} {p : PortNo} {id : BitVec 16} {seq : Seq} {level format : Nat} {samples : List Byte}

/-- A frame of an unknown format does nothing. -/
theorem exec_voiceFrame_unknown_format (hp : PortIs s p .gallery ∨ PortIs s p .desk)
    (hl : samples.length = 128) (hf : format < 256) (h : sampleFormatOf format = none) :
    exec (.voiceFrame p (voiceFrame id seq level format samples)) s = .next s := by
  rw [exec_voiceFrame hp id seq level format hl, voiceArrival, byteAt_voicePayload_format _ _ _ _ _ hf, h]

/-- A frame whose id no record holds is noted as the last unknown source. -/
theorem exec_voiceFrame_unknown_id {f : SampleFormat} (hp : PortIs s p .gallery ∨ PortIs s p .desk)
    (hl : samples.length = 128) (hf : format < 256) (h : sampleFormatOf format = some f)
    (hid : ∀ i : SourceSlot, s.sources[i].id ≠ some id) :
    exec (.voiceFrame p (voiceFrame id seq level format samples)) s =
      .next (if id = 0xFFFF then s else { s with lastUnknown := some id }) := by
  rw [exec_voiceFrame hp id seq level format hl, voiceArrival, byteAt_voicePayload_format _ _ _ _ _ hf, h]
  simp only [wordAt_voicePayload, BitVec.ofNat_toNat, BitVec.setWidth_eq, slotOf_eq_none hid]

/-- A frame of a known source is handed to its record. -/
theorem exec_voiceFrame_known {f : SampleFormat} {i : SourceSlot}
    (hp : PortIs s p .gallery ∨ PortIs s p .desk) (hl : samples.length = 128) (hf : format < 256)
    (hv : level < 256) (h : sampleFormatOf format = some f) (hid : HoldsId s id i) :
    exec (.voiceFrame p (voiceFrame id seq level format samples)) s =
      .next (knownFrame p i seq level (convertSamples f samples) s) := by
  rw [exec_voiceFrame hp id seq level format hl, voiceArrival, byteAt_voicePayload_format _ _ _ _ _ hf, h]
  simp only [wordAt_voicePayload, BitVec.ofNat_toNat, BitVec.setWidth_eq, slotOf_of_holdsId hid,
    byteAt_voicePayload_seq, byteAt_voicePayload_level _ _ _ _ _ hv]
  rfl

end

/-! ### A frame of a known source (R5 to R7) -/

section
variable {s : State} {p : PortNo} {i : SourceSlot} {seq : Seq} {level : Nat} {samples : Block}

theorem knownFrame_accepted (h : classify s.sources[i] seq = .accepted) :
    knownFrame p i seq level samples s =
      if s.sources[i].role = .guide ∧ s.ports[p].role = .gallery then
        observe i p level (acceptFrame i seq samples s)
      else acceptFrame i seq samples s := by
  simp only [knownFrame, h, Bool.and_eq_true, beq_iff_eq]

/-- A discarded frame is at most an observation (R6, R7). -/
theorem knownFrame_discarded (h : classify s.sources[i] seq ≠ .accepted) :
    knownFrame p i seq level samples s =
      if s.sources[i].role = .guide ∧ s.ports[p].role = .gallery then observe i p level s else s := by
  cases hc : classify s.sources[i] seq with
  | accepted => exact absurd hc h
  | duplicate => simp only [knownFrame, hc, Bool.and_eq_true, beq_iff_eq]
  | late => simp only [knownFrame, hc, Bool.and_eq_true, beq_iff_eq]

end

/-! ### Observations that move no comparator (R74 to R76) -/

theorem isKey_iff {i : SourceSlot} {g : PortNo} {r : HearingRecord} :
    isKey i g r = true ↔ r.slot = i ∧ r.port = g := by simp [isKey]

/-- The record of a key once a record of it was put into a table that had none. -/
theorem find?_insertBefore {α : Type} {b : α → α → Bool} {q : α → Bool} {x : α} {l : List α}
    (hx : q x = true) (hl : l.find? q = none) : (insertBefore b x l).find? q = some x := by
  induction l with
  | nil => simp [insertBefore, hx]
  | cons y ys ih =>
    obtain ⟨hy, hys⟩ : q y = false ∧ ys.find? q = none := by
      cases h : q y <;> simp_all
    unfold insertBefore
    split
    · simp [hx]
    · simp [hy, ih hys]

/-- The record of a key once the records of the key were changed, their key kept. -/
theorem hearingOf_modHearing {s : State} {i : SourceSlot} {g : PortNo} {f : HearingRecord → HearingRecord}
    (hf : ∀ r, isKey i g r = true → isKey i g (f r) = true) :
    hearingOf (modHearing i g f s) i g = (hearingOf s i g).map f := by
  change (s.hearing.map fun r => if isKey i g r then f r else r).find? (isKey i g) =
    (s.hearing.find? (isKey i g)).map f
  induction s.hearing with
  | nil => rfl
  | cons r rs ih =>
    cases hr : isKey i g r
    · simp [hr, ih]
    · simp [hr, hf r hr]

/-- A record whose level moves its comparator by none of Table 5-4 is left as it is (R78). -/
theorem evaluate_of_still {s : State} {i : SourceSlot} {g : PortNo} {r : HearingRecord}
    (h : hearingOf s i g = some r)
    (hs : (r.comparator = .out ∧ r.est8 / 8 < s.limits.join) ∨
      (r.comparator = .inside ∧ s.limits.leave ≤ r.est8 / 8)) : evaluate i g s = s := by
  simp only [evaluate, h, HearingRecord.level]
  rcases hs with ⟨hc, hl⟩ | ⟨hc, hl⟩
  · simp [hc, Nat.not_le.mpr hl]
  · simp [hc, Nat.not_lt.mpr hl]

/-- A pair without a record gets an OUT one, and stays so below the join level (R74). -/
theorem observe_of_new {s : State} {i : SourceSlot} {g : PortNo} {level : Nat} (h : hearingOf s i g = none)
    (hr : s.hearing.length < 96) (hl : min 127 level < s.limits.join) :
    observe i g level s = { s with hearing := insertBefore keyBefore ⟨i, g, min 127 level * 8, .out, none,
      some (s.clock + BitVec.ofNat 32 s.limits.silenceMs), none, false⟩ s.hearing } := by
  simp only [observe, h, Config.hearingRecords, hr, if_true, createHearing]
  refine evaluate_of_still (find?_insertBefore (by simp) h) (.inl ⟨rfl, ?_⟩)
  simpa using hl

/-- A record that is not moved takes the level in and has a new silence deadline (R75, R76). -/
theorem observe_of_still {s : State} {i : SourceSlot} {g : PortNo} {level : Nat} {r : HearingRecord}
    (h : hearingOf s i g = some r)
    (hs : (r.comparator = .out ∧ smooth r.est8 (min 127 level) / 8 < s.limits.join) ∨
      (r.comparator = .inside ∧ s.limits.leave ≤ smooth r.est8 (min 127 level) / 8)) :
    observe i g level s = { s with hearing := s.hearing.map fun x => if x.slot = i ∧ x.port = g then
      { x with est8 := smooth x.est8 (min 127 level)
               silenceDeadline := some (s.clock + BitVec.ofNat 32 s.limits.silenceMs) } else x } := by
  have hrec : hearingOf (modHearing i g (HearingRecord.after s level) s) i g = some (r.after s level) :=
    (hearingOf_modHearing (f := HearingRecord.after s level) fun _ hk => hk).trans (congrArg _ h)
  have hobs : observe i g level s = modHearing i g (HearingRecord.after s level) s := by
    simp only [observe, h]
    exact evaluate_of_still hrec hs
  rw [hobs]
  simp only [modHearing, isKey_iff]
  rfl

/-- Settles O22: the frame is taken apart, and then format, id, class and role decide. -/
theorem discardedVoiceFrameIsNotedOrHeard : Obligations.DiscardedVoiceFrameIsNotedOrHeard := by
  unfold Obligations.DiscardedVoiceFrameIsNotedOrHeard
  refine ⟨fun s p id seq level format samples hp hl hf => ⟨fun h => ?_, fun h1 h3 hid => ?_⟩,
    fun s p i id seq n level format samples hl h1 h3 hv hid hn hd => ?_⟩
  · exact exec_voiceFrame_unknown_format hp hl hf (sampleFormatOf_eq_none h)
  · obtain ⟨f, h⟩ := exists_sampleFormatOf h1 h3
    exact exec_voiceFrame_unknown_id hp hl hf h hid
  · obtain ⟨f, h⟩ := exists_sampleFormatOf h1 h3
    have hc := classify_ne_accepted hn hd
    have hexec (hp : PortIs s p .gallery ∨ PortIs s p .desk) :=
      (exec_voiceFrame_known (seq := seq) hp hl (by omega) hv h hid).trans
        (congrArg _ (knownFrame_discarded hc))
    refine ⟨fun hp => ?_, fun hp hg => ?_⟩
    · have hheard : ¬ (s.sources[i].role = .guide ∧ s.ports[p].role = .gallery) := by
        rintro ⟨hg, hr⟩
        rcases hp with ⟨_, _, hdesk⟩ | ⟨_, hng⟩
        · exact absurd (hdesk.symm.trans hr) (by decide)
        · exact hng hg
      rw [hexec (hp.symm.imp_left And.left), if_neg hheard]
    · have hobs := (hexec (.inl hp)).trans (congrArg _ (if_pos ⟨hg, hp.2.2⟩))
      refine ⟨hobs, fun hnone hroom hlow => ?_, fun r hr _ hs => ?_⟩
      · rw [hobs, observe_of_new hnone hroom hlow]
      · rw [hobs, observe_of_still hr hs]

end Sys2Proof.Machine
end

section
/-! What the units that follow a source leave alone: properties of states kept by fewer of the primitive changes than
`MixKeeps` and `FollowKeeps` ask for, and the frames that follow from them. -/

namespace Sys2Proof.Machine

open Laws

variable {P : State → Prop}

/-! ### The shared operations, as what they leave -/

/-- A notice changes the notice queue and its overflow flag at most (R163). -/
theorem queueNotice_eq (k : NoticeKind) (a b : Option (BitVec 16)) (d : BitVec 16) (s : State) :
    queueNotice k a b d s = { s with
      notices := (queueNotice k a b d s).notices
      noticeOverflow := (queueNotice k a b d s).noticeOverflow } := by
  unfold queueNotice
  split
  · rfl
  · split <;> rfl

/-- The notices that were queued stay at the front (R163). -/
theorem noticesGrow_queueNotice (k : NoticeKind) (a b : Option (BitVec 16)) (d : BitVec 16) (s : State) :
    NoticesGrow s (queueNotice k a b d s) := by
  unfold queueNotice
  split
  · exact List.prefix_refl _
  · split
    · exact List.prefix_refl _
    · exact List.prefix_append _ _

/-- A drop changes the delivery log and the notices at most (R173). -/
theorem recordDrop_eq (p : PortNo) (f : TxFrame) (s : State) :
    recordDrop p f s = { s with
      notices := (recordDrop p f s).notices, noticeOverflow := (recordDrop p f s).noticeOverflow
      log := (recordDrop p f s).log } := by
  unfold recordDrop
  split
  · rfl
  · rw [queueNotice_eq]

/-- The transmitter changes the ports at most (R172). -/
theorem startLine_eq (p : PortNo) (s : State) : startLine p s = { s with ports := (startLine p s).ports } := by
  unfold startLine
  split <;> rfl

/-- A frame handed on changes ports, delivery log and notices at most (R171). -/
theorem handFrame_eq (p : PortNo) (f : TxFrame) (s : State) :
    handFrame p f s = { s with
      ports := (handFrame p f s).ports, notices := (handFrame p f s).notices
      noticeOverflow := (handFrame p f s).noticeOverflow, log := (handFrame p f s).log } := by
  unfold handFrame
  split
  · rw [startLine_eq]; rfl
  · rw [recordDrop_eq]

theorem noticesGrow_recordDrop (p : PortNo) (f : TxFrame) (s : State) : NoticesGrow s (recordDrop p f s) := by
  unfold recordDrop
  split
  · exact List.prefix_refl _
  · exact noticesGrow_queueNotice .deliveryError (subjectOf p.val) f.subject (f.kindCode.setWidth 16)
      { s with log := ⟨some ⟨p, f.kindCode, f.subject, s.clock⟩, 1⟩ }

theorem noticesGrow_handFrame (p : PortNo) (f : TxFrame) (s : State) : NoticesGrow s (handFrame p f s) := by
  unfold handFrame
  split
  · rw [NoticesGrow, startLine_notices]; exact List.prefix_refl _
  · exact noticesGrow_recordDrop _ _ _

/-- A change of one port that keeps link, role and generation. -/
theorem portsKept_modPort (s : State) (p : PortNo) (f : Port → Port)
    (hf : ∀ e, (f e).role = e.role ∧ (f e).link = e.link ∧ (f e).generation = e.generation) :
    PortsKept s (s.modPort p f) := by
  intro q
  by_cases h : p = q
  · subst h; simpa using hf s.ports[p]
  · have hv : p.val ≠ q.val := fun e => h (Fin.ext e)
    simp [Vector.getElem_set_ne, hv]

theorem PortsKept.trans {s t u : State} (h : PortsKept s t) (h' : PortsKept t u) : PortsKept s u := fun p =>
  let ⟨a, b, c⟩ := h p
  let ⟨a', b', c'⟩ := h' p
  ⟨a'.trans a, b'.trans b, c'.trans c⟩

theorem portsKept_startLine (p : PortNo) (s : State) : PortsKept s (startLine p s) := by
  unfold startLine
  split
  · exact portsKept_modPort _ _ _ fun _ => ⟨rfl, rfl, rfl⟩
  · exact fun _ => ⟨rfl, rfl, rfl⟩

theorem portsKept_handFrame (p : PortNo) (f : TxFrame) (s : State) : PortsKept s (handFrame p f s) := by
  unfold handFrame
  split
  · have h := portsKept_modPort s p (fun e => { e with queue := e.queue ++ [f] }) fun _ => ⟨rfl, rfl, rfl⟩
    exact PortsKept.trans h (portsKept_startLine _ _)
  · intro q; simp

/-! ### Frames of the mix engine and of what follows a source -/

/-- A projection that the six fields the mix engine writes do not enter is kept by it. -/
theorem mixKeeps_of_ignores {α : Type} {π : State → α}
    (h : ∀ t a b c d e f, π { t with
      sources := a, programs := b, ports := c, notices := d, noticeOverflow := e, log := f } = π t) (x : α) :
    MixKeeps (fun t => π t = x) where
  trim s _ _ hs := (h s _ s.programs s.ports s.notices s.noticeOverflow s.log).trans hs
  program s _ _ hs := (h s s.sources _ s.ports s.notices s.noticeOverflow s.log).trans hs
  notice k a b d s hs := by
    rw [queueNotice_eq]; exact (h s s.sources s.programs s.ports _ _ s.log).trans hs
  frame p f s hs := by
    rw [handFrame_eq]; exact (h s s.sources s.programs _ _ _ _).trans hs

/-- A projection that the fields of what follows a source do not enter is kept by it. -/
theorem followKeeps_of_ignores {α : Type} {π : State → α}
    (h : ∀ t a b c d e f, π { t with
      sources := a, programs := b, ports := c, notices := d, noticeOverflow := e, log := f } = π t)
    (h' : ∀ t a b c d e, π { t with
      galleries := a, tours := b, announcements := c, hearing := d, guideFrozen := e } = π t) (x : α) :
    FollowKeeps (fun t => π t = x) where
  toMixKeeps := mixKeeps_of_ignores h x
  gallery s _ _ hs := (h' s _ s.tours s.announcements s.hearing s.guideFrozen).trans hs
  tour s _ _ _ hs := (h' s s.galleries _ s.announcements s.hearing s.guideFrozen).trans hs
  announcement s _ _ hs := (h' s s.galleries s.tours _ s.hearing s.guideFrozen).trans hs
  hearing s _ _ hs := (h' s s.galleries s.tours s.announcements _ s.guideFrozen).trans hs
  frozen s _ hs := (h' s s.galleries s.tours s.announcements s.hearing _).trans hs

theorem SourcesTrimmed.refl (s : State) : SourcesTrimmed s s := fun _ => ⟨rfl, List.suffix_refl _⟩

theorem SourcesTrimmed.trans {s t u : State} (h : SourcesTrimmed s t) (h' : SourcesTrimmed t u) :
    SourcesTrimmed s u := fun i => by
  obtain ⟨he, hs⟩ := h i
  obtain ⟨he', hs'⟩ := h' i
  exact ⟨by rw [he', he], hs'.trans hs⟩

/-- A store that lost oldest entries. -/
theorem sourcesTrimmed_modSource (s : State) (i : SourceSlot) (q : Entry → Bool) :
    SourcesTrimmed s (s.modSource i fun r => { r with store := r.store.dropWhile q }) := by
  intro j
  by_cases h : i = j
  · subst h; simp [List.dropWhile_suffix]
  · have hv : i.val ≠ j.val := fun e => h (Fin.ext e)
    simp [Vector.getElem_set_ne, hv]

/-- Stores short of oldest entries, ports kept, notices appended. -/
def Grown (s t : State) : Prop := SourcesTrimmed s t ∧ PortsKept s t ∧ NoticesGrow s t

theorem Grown.refl (s : State) : Grown s s :=
  ⟨SourcesTrimmed.refl s, fun _ => ⟨rfl, rfl, rfl⟩, List.prefix_refl _⟩

theorem Grown.trans {s t u : State} (h : Grown s t) (h' : Grown t u) : Grown s u :=
  ⟨h.1.trans h'.1, h.2.1.trans h'.2.1, List.IsPrefix.trans h.2.2 h'.2.2⟩

/-- All that follows a change of a source leaves stores, ports and notices so. -/
theorem followKeeps_grown (s : State) : FollowKeeps (Grown s) where
  trim _ i q hs := hs.trans ⟨sourcesTrimmed_modSource _ i q, fun _ => ⟨rfl, rfl, rfl⟩, List.prefix_refl _⟩
  program _ _ _ hs := hs
  notice k a b d t hs := hs.trans ⟨by rw [queueNotice_eq]; exact SourcesTrimmed.refl t,
    by rw [queueNotice_eq]; exact fun _ => ⟨rfl, rfl, rfl⟩, noticesGrow_queueNotice k a b d t⟩
  frame p f t hs := hs.trans ⟨by rw [handFrame_eq]; exact SourcesTrimmed.refl t,
    portsKept_handFrame p f t, noticesGrow_handFrame p f t⟩
  gallery _ _ _ hs := hs
  tour _ _ _ _ hs := hs
  announcement _ _ _ hs := hs
  hearing _ _ _ hs := hs
  frozen _ _ hs := hs

end Sys2Proof.Machine
end

section
/-! A change of a source's state handed on (R10): tours and programs, announcements and overlays. -/

namespace Sys2Proof.Machine

open Laws

variable {P : State → Prop}

/-! ### Operations for each record of a table -/

theorem forEach_cons {α : Type} (x : α) (xs : List α) (f : α → State → State) (s : State) :
    forEach (x :: xs) f s = forEach xs f (f x s) := rfl

/-- The record of a slot after a change of one slot. -/
theorem modSource_sources_self (s : State) (i : SourceSlot) (f : Source → Source) :
    (s.modSource i f).sources[i] = f s.sources[i] := by simp

theorem modSource_sources_ne (s : State) {i j : SourceSlot} (h : i ≠ j) (f : Source → Source) :
    (s.modSource i f).sources[j] = s.sources[j] := by
  have hv : i.val ≠ j.val := fun e => h (Fin.ext e)
  simp [Vector.getElem_set_ne, hv]

theorem modTour_tours_self (s : State) (n : TourNo) (f : Tour → Tour) :
    (s.modTour n f).tours[n] = f s.tours[n] := by simp

theorem modTour_tours_ne (s : State) {n m : TourNo} (h : n ≠ m) (f : Tour → Tour) :
    (s.modTour n f).tours[m] = s.tours[m] := by
  have hv : n.val ≠ m.val := fun e => h (Fin.ext e)
  simp [Vector.getElem_set_ne, hv]

theorem modTour_of_fixed {s : State} {n : TourNo} {f : Tour → Tour} (h : f s.tours[n] = s.tours[n]) :
    s.modTour n f = s := by
  have hset : s.tours.set n s.tours[n] = s.tours := Vector.set_getElem_self _
  simp only [State.modTour, h, hset]

theorem modProgram_programs_self (s : State) (p : ProgNo) (f : Program → Program) :
    (s.modProgram p f).programs[p] = f s.programs[p] := by simp

theorem modProgram_programs_ne (s : State) {p q : ProgNo} (h : p ≠ q) (f : Program → Program) :
    (s.modProgram p f).programs[q] = s.programs[q] := by
  have hv : p.val ≠ q.val := fun e => h (Fin.ext e)
  simp [Vector.getElem_set_ne, hv]

theorem setAnnouncement_self (s : State) (n : AnnNo) (x : Option Announcement) :
    (s.setAnnouncement n x).announcements[n] = x := by simp

theorem setAnnouncement_ne (s : State) {n m : AnnNo} (h : n ≠ m) (x : Option Announcement) :
    (s.setAnnouncement n x).announcements[m] = s.announcements[m] := by
  have hv : n.val ≠ m.val := fun e => h (Fin.ext e)
  simp [Vector.getElem_set_ne, hv]

/-! ### The guide frozen flag (R24) -/

/-- A tour with the guide frozen flag set to `b` if it is OPEN under this guide. -/
def Tour.flagged (i : SourceSlot) (b : Bool) (r : Tour) : Tour :=
  { r with guideFrozen := if r.state = .opened ∧ r.guide = some i then b else r.guideFrozen }

theorem Tour.flagged_flagged (i : SourceSlot) (b : Bool) (r : Tour) :
    (r.flagged i b).flagged i b = r.flagged i b := by
  simp only [Tour.flagged]
  split <;> rfl

/-- Changing the tours of a list, the same change twice being as good as once. -/
theorem forEach_modTour {f : Tour → Tour} (hf : ∀ r, f (f r) = f r) (ns : List TourNo) (s : State) :
    let t := forEach ns (fun n s => s.modTour n f) s
    t = { s with tours := t.tours } ∧
      ∀ n : TourNo, t.tours[n] = if n ∈ ns then f s.tours[n] else s.tours[n] := by
  induction ns generalizing s with
  | nil => exact ⟨rfl, fun n => (if_neg List.not_mem_nil).symm⟩
  | cons m ns ih =>
    obtain ⟨he, ht⟩ := ih (s.modTour m f)
    refine ⟨he, fun n => (ht n).trans ?_⟩
    by_cases hn : m = n
    · subst hn
      rw [modTour_tours_self, hf, ite_self, if_pos List.mem_cons_self]
    · rw [modTour_tours_ne _ hn]
      simp only [List.mem_cons, Ne.symm hn, false_or]

/-- Setting the flag is a change of every tour, which leaves most as they are. -/
theorem setGuideFrozen_eq_forEach (i : SourceSlot) (b : Bool) (s : State) :
    setGuideFrozen i b s = forEach (fins 24) (fun n s => s.modTour n (Tour.flagged i b)) s := by
  unfold setGuideFrozen
  congr 1
  funext n s
  by_cases hc : s.tours[n].state = .opened ∧ s.tours[n].guide = some i
  · simp only [if_pos hc, State.modTour, Tour.flagged]
  · rw [if_neg hc, modTour_of_fixed]
    simp only [Tour.flagged, if_neg hc]

/-- The flag changes the tours only. -/
theorem setGuideFrozen_eq (i : SourceSlot) (b : Bool) (s : State) :
    setGuideFrozen i b s = { s with tours := (setGuideFrozen i b s).tours } :=
  setGuideFrozen_eq_forEach i b s ▸ (forEach_modTour (Tour.flagged_flagged i b) (fins 24) s).1

theorem setGuideFrozen_tours (i : SourceSlot) (b : Bool) (s : State) (n : TourNo) :
    (setGuideFrozen i b s).tours[n] = s.tours[n].flagged i b :=
  setGuideFrozen_eq_forEach i b s ▸
    ((forEach_modTour (Tour.flagged_flagged i b) (fins 24) s).2 n).trans (if_pos (mem_fins n))

/-! ### Programs that follow a source (R10, R30, R31) -/

/-- What the mix engine keeps is kept by the programs that follow a source, the flag being set before. -/
theorem programsFollow_keeps (h : MixKeeps P) (i : SourceSlot) (flag : Option Bool) (s : State)
    (hs : P (match flag with | none => s | some b => setGuideFrozen i b s)) : P (programsFollow i flag s) := by
  refine forEach_keeps _ (fun p t ht => ?_) _ hs
  split
  · exact h.deriveVoice p t ht
  · exact ht

/-- A projection that neither the mix engine nor the guide frozen flag enters is the same once programs followed. -/
theorem programsFollow_ignores {α : Type} {π : State → α} (h : ∀ t a b c d e f, π { t with
      sources := a, programs := b, ports := c, notices := d, noticeOverflow := e, log := f } = π t)
    (h' : ∀ t a, π { t with tours := a } = π t) (i : SourceSlot) (flag : Option Bool) (s : State) :
    π (programsFollow i flag s) = π s := by
  refine programsFollow_keeps (mixKeeps_of_ignores h (π s)) i flag s ?_
  cases flag with
  | none => rfl
  | some b => exact (congrArg π (setGuideFrozen_eq i b s)).trans (h' s _)

/-! ### The overlay chosen (R69, R70) -/

/-- The overlay of R69 depends on the announcements that are ON, the zones and the tour's gallery set. -/
theorem chosenOverlay_congr {s t : State} {p : ProgNo}
    (ha : ∀ n : AnnNo, s.announcements[n].filter (·.state == .on) = t.announcements[n].filter (·.state == .on))
    (hz : s.zones = t.zones) (ht : s.tours[tourOf p].gallerySet = t.tours[tourOf p].gallerySet) :
    chosenOverlay s p = chosenOverlay t p := by
  have happ (a : Announcement) : applies s p a = applies t p a := by
    simp only [applies, announcedPorts, hz, ht]
  have hrec (u : State) (n : AnnNo) : (match u.announcements[n] with
      | none => none
      | some a => if applies u p a then some (n, a) else none) =
      ((u.announcements[n].filter (·.state == .on)).filter (applies u p)).map fun a => (n, a) := by
    cases u.announcements[n] with
    | none => rfl
    | some a =>
      by_cases h1 : applies u p a = true
      · have h2 : (a.state == .on) = true := by
          simp only [applies, Bool.and_eq_true] at h1; exact h1.1
        simp [h1, h2, Option.filter]
      · cases h2 : (a.state == AnnState.on) <;> simp [h1, h2, Option.filter]
  have hall : applying s p = applying t p := by
    unfold applying
    congr 1
    funext n
    refine (hrec s n).trans (Eq.trans ?_ (hrec t n).symm)
    rw [ha n, funext happ]
  rw [chosenOverlay, chosenOverlay, hall]

/-- An ACTIVE program has the overlay of R69. -/
def OverlaidAt (q : ProgNo) (s : State) : Prop :=
  s.programs[q].state = .active → s.programs[q].overlayAnn = chosenOverlay s q

/-- What decides the overlay of a program, and what it has. -/
def overlayView (q : ProgNo) (s : State) :
    Vector (Option Announcement) 4 × Vector Zone 8 × List PortNo × ProgState × Option AnnNo :=
  (s.announcements, s.zones, s.tours[tourOf q].gallerySet, s.programs[q].state, s.programs[q].overlayAnn)

theorem overlaidAt_congr {q : ProgNo} {s t : State} (h : overlayView q t = overlayView q s)
    (hs : OverlaidAt q s) : OverlaidAt q t := by
  simp only [overlayView, Prod.mk.injEq] at h
  obtain ⟨ha, hz, hg, hst, ho⟩ := h
  intro hact
  rw [ho, hs (hst ▸ hact)]
  exact chosenOverlay_congr (fun n => by rw [ha]) hz.symm hg.symm

theorem overlayView_applyRemovalTo (q : ProgNo) (i : Option SourceSlot) (s : State) :
    overlayView q (applyRemovalTo i s) = overlayView q s := by
  cases i with
  | none => rfl
  | some i =>
    unfold applyRemovalTo applyRemoval
    dsimp only
    split <;> rfl

/-- The choice for a program gives it the overlay of R69. -/
theorem overlaidAt_chooseOverlay_self (p : ProgNo) (s : State) : OverlaidAt p (chooseOverlay p s) := by
  unfold chooseOverlay
  dsimp only
  split
  · next h => exact fun ha => absurd ha h
  · split
    · next h => exact fun _ => h.symm
    · refine overlaidAt_congr (overlayView_applyRemovalTo p _ _) fun _ => ?_
      rw [modProgram_programs_self]
      exact chosenOverlay_congr (fun _ => rfl) rfl rfl

/-- The choice for one program leaves every other as it is. -/
theorem overlayView_chooseOverlay_ne {p q : ProgNo} (h : p ≠ q) (s : State) :
    overlayView q (chooseOverlay p s) = overlayView q s := by
  unfold chooseOverlay
  dsimp only
  split
  · rfl
  · split
    · rfl
    · rw [overlayView_applyRemovalTo]
      simp only [overlayView, modProgram_programs_ne _ h]
      rfl

theorem overlaidAt_chooseOverlay {q : ProgNo} (p : ProgNo) {s : State} (hs : OverlaidAt q s) :
    OverlaidAt q (chooseOverlay p s) := by
  by_cases h : p = q
  · exact h ▸ overlaidAt_chooseOverlay_self p s
  · exact overlaidAt_congr (overlayView_chooseOverlay_ne h s) hs

/-- The choice for several programs gives each of them the overlay of R69. -/
theorem overlaidAt_forEach_chooseOverlay {q : ProgNo} (ps : List ProgNo) (s : State)
    (h : q ∈ ps ∨ OverlaidAt q s) : OverlaidAt q (forEach ps chooseOverlay s) := by
  induction ps generalizing s with
  | nil => exact h.resolve_left List.not_mem_nil
  | cons p ps ih =>
    refine ih _ ?_
    rcases h with h | h
    · rcases List.mem_cons.mp h with rfl | h
      · exact .inr (overlaidAt_chooseOverlay_self q s)
      · exact .inl h
    · exact .inr (overlaidAt_chooseOverlay p h)

theorem overlaidAt_chooseAllOverlays (q : ProgNo) (s : State) : OverlaidAt q (chooseAllOverlays s) :=
  overlaidAt_forEach_chooseOverlay _ s (.inl (mem_fins q))

/-- A projection that the mix engine does not enter is the same once overlays were chosen. -/
theorem chooseAllOverlays_ignores {α : Type} {π : State → α} (h : ∀ t a b c d e f, π { t with
      sources := a, programs := b, ports := c, notices := d, noticeOverflow := e, log := f } = π t)
    (s : State) : π (chooseAllOverlays s) = π s :=
  (mixKeeps_of_ignores h (π s)).chooseAllOverlays s rfl

end Sys2Proof.Machine
end

section
/-! Announcements that follow their announcer (R66, R68), and LOST_DEADLINE_EXPIRY. -/

namespace Sys2Proof.Machine

open Laws

variable {P : State → Prop}

/-! ### One record that follows its announcer -/

/-- A record becomes ON when it is PENDING and names the source that became LIVE (R66). -/
def onIfWaiting (i : SourceSlot) (n : AnnNo) (s : State) : State :=
  match s.announcements[n] with
  | none => s
  | some a => if a.slot = i ∧ a.state = .waiting then putAnnouncement n (announcementOn s a) s else s

/-- A record ends when it is ON and names the source that left LIVE (R68). -/
def endIfOn (i : SourceSlot) (n : AnnNo) (s : State) : State :=
  match s.announcements[n] with
  | none => s
  | some a => if a.slot = i ∧ a.state = .on then endAnnouncement n s else s

theorem announcerLive_eq (i : SourceSlot) (s : State) :
    announcerLive i s = forEach (fins 4) (onIfWaiting i) s := rfl

theorem announcerLost_eq (i : SourceSlot) (s : State) :
    announcerLost i s = forEach (fins 4) (endIfOn i) s := rfl

/-- The record names the source and is in this state. -/
def announces (i : SourceSlot) (st : AnnState) (x : Option Announcement) : Bool :=
  x.any fun a => a.slot = i ∧ a.state = st

theorem announces_iff {i : SourceSlot} {st : AnnState} {x : Option Announcement} :
    announces i st x = true ↔ ∃ a, x = some a ∧ a.slot = i ∧ a.state = st := by
  cases x <;> simp [announces]

/-- A record set to ON has the overlays chosen again (R63, R64, R66). -/
theorem putAnnouncement_of_on {n : AnnNo} {a : Announcement} {s : State} (h : a.state = .on) :
    putAnnouncement n a s = chooseAllOverlays (s.setAnnouncement n (some a)) := by
  simp only [putAnnouncement, if_pos h]

theorem onIfWaiting_of_announces {i : SourceSlot} {n : AnnNo} {s : State} {a : Announcement}
    (h : s.announcements[n] = some a) (hi : a.slot = i) (hw : a.state = .waiting) :
    onIfWaiting i n s = chooseAllOverlays (s.setAnnouncement n (some (announcementOn s a))) := by
  simp only [onIfWaiting, h, if_pos (And.intro hi hw)]
  exact putAnnouncement_of_on rfl

theorem onIfWaiting_of_not {i : SourceSlot} {n : AnnNo} {s : State}
    (h : announces i .waiting s.announcements[n] = false) : onIfWaiting i n s = s := by
  unfold onIfWaiting
  split
  · rfl
  · next a ha => exact if_neg fun hc => Bool.eq_false_iff.mp h (announces_iff.mpr ⟨a, ha, hc⟩)

theorem endIfOn_of_announces {i : SourceSlot} {n : AnnNo} {s : State} {a : Announcement}
    (h : s.announcements[n] = some a) (hi : a.slot = i) (ho : a.state = .on) :
    endIfOn i n s =
      (chooseAllOverlays (s.setAnnouncement n (some { a with state := .waiting }))).setAnnouncement n none := by
  simp only [endIfOn, h, if_pos (And.intro hi ho), endAnnouncement, if_pos ho]
  rfl

theorem endIfOn_of_not {i : SourceSlot} {n : AnnNo} {s : State}
    (h : announces i .on s.announcements[n] = false) : endIfOn i n s = s := by
  unfold endIfOn
  split
  · rfl
  · next a ha => exact if_neg fun hc => Bool.eq_false_iff.mp h (announces_iff.mpr ⟨a, ha, hc⟩)

/-! ### What the records that follow leave alone -/

/-- What the mix engine and a change of a record keep is kept as records become ON. -/
theorem announcerLive_keeps (h : MixKeeps P) (ha : ∀ s n x, P s → P (s.setAnnouncement n x)) (i : SourceSlot)
    (s : State) (hs : P s) : P (announcerLive i s) := by
  rw [announcerLive_eq]
  refine forEach_keeps _ (fun n t ht => ?_) s hs
  cases hc : announces i .waiting t.announcements[n]
  · rwa [onIfWaiting_of_not hc]
  · obtain ⟨a, h1, h2, h3⟩ := announces_iff.mp hc
    rw [onIfWaiting_of_announces h1 h2 h3]
    exact h.chooseAllOverlays _ (ha _ _ _ ht)

/-- What the mix engine and a change of a record keep is kept as records end. -/
theorem announcerLost_keeps (h : MixKeeps P) (ha : ∀ s n x, P s → P (s.setAnnouncement n x)) (i : SourceSlot)
    (s : State) (hs : P s) : P (announcerLost i s) := by
  rw [announcerLost_eq]
  refine forEach_keeps _ (fun n t ht => ?_) s hs
  cases hc : announces i .on t.announcements[n]
  · rwa [endIfOn_of_not hc]
  · obtain ⟨a, h1, h2, h3⟩ := announces_iff.mp hc
    rw [endIfOn_of_announces h1 h2 h3]
    exact ha _ _ _ (h.chooseAllOverlays _ (ha _ _ _ ht))

/-- Without a record that is ON for it, a source that left LIVE ends none. -/
theorem announcerLost_of_none {i : SourceSlot} {s : State}
    (h : ∀ n : AnnNo, announces i .on s.announcements[n] = false) : announcerLost i s = s := by
  refine forEach_keeps (P := fun t => t = s) _ (fun n t ht => ?_) s rfl
  subst ht
  exact endIfOn_of_not (h n)

/-! ### The records afterwards -/

/-- The records after a change of each in a list, the change being the same twice as once. -/
theorem forEach_announcements {step : AnnNo → State → State} {g : Option Announcement → Option Announcement}
    {R : State → Prop} (hg : ∀ x, g (g x) = g x) (hR : ∀ n s, R s → R (step n s))
    (hstep : ∀ n s, R s → (step n s).announcements = s.announcements.set n (g s.announcements[n]))
    (ns : List AnnNo) (s : State) (hs : R s) (n : AnnNo) :
    (forEach ns step s).announcements[n] = if n ∈ ns then g s.announcements[n] else s.announcements[n] := by
  induction ns generalizing s with
  | nil => exact (if_neg List.not_mem_nil).symm
  | cons m ns ih =>
    rw [forEach_cons, ih _ (hR m s hs), hstep m s hs]
    by_cases hn : m = n
    · subst hn
      simp only [Fin.getElem_fin, Vector.getElem_set_self, hg, ite_self, List.mem_cons_self, if_true]
    · have hv : m.val ≠ n.val := fun e => hn (Fin.ext e)
      simp only [Fin.getElem_fin, Vector.getElem_set_ne _ _ hv, List.mem_cons, Ne.symm hn, false_or]

/-- A record as it ends with its announcer, or stays (R68). -/
def endedWith (i : SourceSlot) (x : Option Announcement) : Option Announcement :=
  x.filter fun a => !(a.slot = i ∧ a.state = .on)

theorem endedWith_endedWith (i : SourceSlot) (x : Option Announcement) :
    endedWith i (endedWith i x) = endedWith i x := by
  simp [endedWith]

theorem endedWith_of_announces {i : SourceSlot} {x : Option Announcement} (h : announces i .on x = true) :
    endedWith i x = none := by
  obtain ⟨a, rfl, hi, ho⟩ := announces_iff.mp h
  simp [endedWith, hi, ho]

theorem endedWith_of_not {i : SourceSlot} {x : Option Announcement} (h : announces i .on x = false) :
    endedWith i x = x := by
  cases x with
  | none => rfl
  | some a => simpa [endedWith, announces, Option.filter] using h

theorem announcements_set_self (v : Vector (Option Announcement) 4) (n : AnnNo) : v.set n v[n] = v :=
  Vector.set_getElem_self _

theorem chooseAllOverlays_announcements (s : State) : (chooseAllOverlays s).announcements = s.announcements :=
  chooseAllOverlays_ignores (π := State.announcements) (fun _ _ _ _ _ _ _ => rfl) s

theorem endIfOn_announcements (i : SourceSlot) (n : AnnNo) (s : State) :
    (endIfOn i n s).announcements = s.announcements.set n (endedWith i s.announcements[n]) := by
  cases hc : announces i .on s.announcements[n]
  · rw [endIfOn_of_not hc, endedWith_of_not hc, announcements_set_self]
  · obtain ⟨a, h1, h2, h3⟩ := announces_iff.mp hc
    rw [endIfOn_of_announces h1 h2 h3, endedWith_of_announces hc, State.setAnnouncement_announcements,
      chooseAllOverlays_announcements]
    simp

/-- Every ON record of a source that left LIVE has ended, and every other stays (R68). -/
theorem announcerLost_announcements (i : SourceSlot) (s : State) (n : AnnNo) :
    (announcerLost i s).announcements[n] = endedWith i s.announcements[n] :=
  (forEach_announcements (R := fun _ => True) (endedWith_endedWith i) (fun _ _ _ => trivial)
    (fun n s _ => endIfOn_announcements i n s) (fins 4) s trivial n).trans (if_pos (mem_fins n))

/-- A record as it becomes ON with its announcer at clock `c`, or stays (R66). -/
def startedWith (i : SourceSlot) (c : Clock) (x : Option Announcement) : Option Announcement :=
  x.map fun a => if a.slot = i ∧ a.state = .waiting then { a with
    state := .on, startStamp := some c, pendingDeadline := none
    endDeadline := some (c + BitVec.ofNat 32 (a.duration * 1000)) } else a

theorem startedWith_startedWith (i : SourceSlot) (c : Clock) (x : Option Announcement) :
    startedWith i c (startedWith i c x) = startedWith i c x := by
  cases x with
  | none => rfl
  | some a =>
    by_cases h : a.slot = i ∧ a.state = .waiting <;> simp [startedWith, h]

theorem startedWith_of_not {i : SourceSlot} {c : Clock} {x : Option Announcement}
    (h : announces i .waiting x = false) : startedWith i c x = x := by
  cases x with
  | none => rfl
  | some a =>
    have hn : ¬ (a.slot = i ∧ a.state = .waiting) := by simpa [announces] using h
    simp only [startedWith, Option.map_some, if_neg hn]

theorem onIfWaiting_announcements (i : SourceSlot) (n : AnnNo) (s : State) :
    (onIfWaiting i n s).announcements = s.announcements.set n (startedWith i s.clock s.announcements[n]) := by
  cases hc : announces i .waiting s.announcements[n]
  · rw [onIfWaiting_of_not hc, startedWith_of_not hc, announcements_set_self]
  · obtain ⟨a, h1, h2, h3⟩ := announces_iff.mp hc
    rw [onIfWaiting_of_announces h1 h2 h3, chooseAllOverlays_announcements, State.setAnnouncement_announcements,
      h1]
    simp only [startedWith, Option.map_some, if_pos (And.intro h2 h3)]
    rfl

/-- Every PENDING record of a source that became LIVE is ON, and every other stays (R66). -/
theorem announcerLive_announcements (i : SourceSlot) (s : State) (n : AnnNo) :
    (announcerLive i s).announcements[n] = startedWith i s.clock s.announcements[n] := by
  have hclock : ∀ m t, t.clock = s.clock → (onIfWaiting i m t).clock = s.clock := by
    intro m t ht
    cases hc : announces i .waiting t.announcements[m]
    · rwa [onIfWaiting_of_not hc]
    · obtain ⟨a, h1, h2, h3⟩ := announces_iff.mp hc
      rw [onIfWaiting_of_announces h1 h2 h3]
      exact (chooseAllOverlays_ignores (π := State.clock) (fun _ _ _ _ _ _ _ => rfl) _).trans ht
  exact (forEach_announcements (R := fun t => t.clock = s.clock) (startedWith_startedWith i s.clock) hclock
    (fun m t ht => ht ▸ onIfWaiting_announcements i m t) (fins 4) s rfl n).trans (if_pos (mem_fins n))

/-! ### The overlays afterwards -/

/-- A record concerned among several gives a program the overlay of R69, if each that is concerned does. -/
theorem overlaidAt_forEach {q : ProgNo} {step : AnnNo → State → State} {hit : Option Announcement → Bool}
    (hhit : ∀ n s, hit s.announcements[n] = true → OverlaidAt q (step n s))
    (hmiss : ∀ n s, hit s.announcements[n] = false → step n s = s) (ns : List AnnNo) (s : State)
    (h : OverlaidAt q s ∨ ∃ n ∈ ns, hit s.announcements[n] = true) : OverlaidAt q (forEach ns step s) := by
  induction ns generalizing s with
  | nil => exact h.resolve_right fun ⟨_, hn, _⟩ => List.not_mem_nil hn
  | cons m ns ih =>
    refine ih (step m s) ?_
    cases hm : hit s.announcements[m]
    · rw [hmiss m s hm]
      refine h.imp_right fun ⟨n, hn, hc⟩ => ⟨n, (List.mem_cons.mp hn).resolve_left ?_, hc⟩
      rintro rfl
      exact Bool.false_ne_true (hm.symm.trans hc)
    · exact .inl (hhit m s hm)

/-- Once a record became ON with its announcer, every ACTIVE program has the overlay of R69. -/
theorem overlaidAt_announcerLive {i : SourceSlot} {s : State} {n : AnnNo}
    (h : announces i .waiting s.announcements[n] = true) (q : ProgNo) : OverlaidAt q (announcerLive i s) := by
  refine overlaidAt_forEach (step := onIfWaiting i) (hit := announces i .waiting) (fun m t hm => ?_)
    (fun m t hm => onIfWaiting_of_not hm) _ s (.inr ⟨n, mem_fins n, h⟩)
  obtain ⟨a, h1, h2, h3⟩ := announces_iff.mp hm
  rw [onIfWaiting_of_announces h1 h2 h3]
  exact overlaidAt_chooseAllOverlays q _

/-- A record that is not ON can be freed without another choice of overlays. -/
theorem overlaidAt_setAnnouncement_none {q : ProgNo} {s : State} {n : AnnNo}
    (h : s.announcements[n].filter (·.state == .on) = none) (hs : OverlaidAt q s) :
    OverlaidAt q (s.setAnnouncement n none) := by
  intro hact
  refine (hs hact).trans (chosenOverlay_congr (fun m => ?_) rfl rfl)
  by_cases hm : n = m
  · subst hm
    rw [setAnnouncement_self, h]; rfl
  · rw [setAnnouncement_ne _ hm]

/-- Once a record ended with its announcer, every ACTIVE program has the overlay of R69. -/
theorem overlaidAt_announcerLost {i : SourceSlot} {s : State} {n : AnnNo}
    (h : announces i .on s.announcements[n] = true) (q : ProgNo) : OverlaidAt q (announcerLost i s) := by
  refine overlaidAt_forEach (step := endIfOn i) (hit := announces i .on) (fun m t hm => ?_)
    (fun m t hm => endIfOn_of_not hm) _ s (.inr ⟨n, mem_fins n, h⟩)
  obtain ⟨a, h1, h2, h3⟩ := announces_iff.mp hm
  rw [endIfOn_of_announces h1 h2 h3]
  refine overlaidAt_setAnnouncement_none ?_ (overlaidAt_chooseAllOverlays q _)
  rw [chooseAllOverlays_announcements, setAnnouncement_self]
  rfl

/-! ### LOST_DEADLINE_EXPIRY (R9, R10) -/

/-- An emptied store leaves the other slots alone; of the programs only cursors differ (R15). -/
theorem emptyStore_eq (i : SourceSlot) (s : State) : emptyStore i s = { s with
    sources := s.sources.set i { s.sources[i] with store := [], newest := none }
    programs := (emptyStore i s).programs } := by
  refine forEach_keeps (P := fun t => t = { s with
    sources := s.sources.set i { s.sources[i] with store := [], newest := none }
    programs := t.programs }) _ (fun p t ht => ?_) _ rfl
  rw [ht]; rfl

/-- The slot of a source that is LOST (R9). -/
def Source.lost (r : Source) : Source :=
  { r with state := .lost, newest := none, lostDeadline := none, store := [] }

/-- The hub when a source is LOST, before SOURCE_LOST: the slot, and cursors of programs. -/
theorem loseSource_eq (i : SourceSlot) (s : State) : ∃ ps, loseSource i s =
    handOnLost i (queueNotice .sourceLost (some (BitVec.ofNat 16 i.val)) s.sources[i].id
      (BitVec.ofNat 16 ((s.sources[i].newest.map (·.toNat)).getD 0xFFFF))
      { s with sources := s.sources.set i s.sources[i].lost, programs := ps }) := by
  refine ⟨(emptyStore i (s.modSource i fun r => { r with state := .lost })).programs, ?_⟩
  unfold loseSource
  rw [emptyStore_eq]
  simp [State.modSource, sourceNotice, subjectOf, Source.lost]

/-- A projection that what follows a source does not enter is the same once the loss was handed on. -/
theorem handOnLost_ignores {α : Type} {π : State → α}
    (h : ∀ t a b c d e f, π { t with
      sources := a, programs := b, ports := c, notices := d, noticeOverflow := e, log := f } = π t)
    (h' : ∀ t a b c d e, π { t with
      galleries := a, tours := b, announcements := c, hearing := d, guideFrozen := e } = π t)
    (i : SourceSlot) (s : State) : π (handOnLost i s) = π s :=
  (followKeeps_of_ignores h h' (π s)).handOnLost i s rfl

/-- The loss handed on to programs and announcements, before a guide's records freeze. -/
def lossFollowed (i : SourceSlot) (s : State) : State := announcerLost i (programsFollow i (some true) s)

theorem handOnLost_eq (i : SourceSlot) (s : State) : handOnLost i s =
    if (lossFollowed i s).sources[i].role = .guide then freezeGuide i (lossFollowed i s)
    else lossFollowed i s := rfl

theorem grown_lossFollowed (i : SourceSlot) (s : State) : Grown s (lossFollowed i s) :=
  (followKeeps_grown s).announcerLost i _ ((followKeeps_grown s).programsFollow i _ s (Grown.refl s))

/-- The hearing table is not concerned by what programs and announcements follow. -/
theorem lossFollowed_hearing (i : SourceSlot) (s : State) :
    (lossFollowed i s).hearing = s.hearing ∧ (lossFollowed i s).guideFrozen = s.guideFrozen := by
  have hmix (v : List HearingRecord × Vector Bool 64) :
      MixKeeps (fun t => (t.hearing, t.guideFrozen) = v) :=
    mixKeeps_of_ignores (π := fun t => (t.hearing, t.guideFrozen)) (fun _ _ _ _ _ _ _ => rfl) v
  have h := announcerLost_keeps (hmix _) (fun _ _ _ h => h) i _ (programsFollow_ignores
    (π := fun t => (t.hearing, t.guideFrozen)) (fun _ _ _ _ _ _ _ => rfl) (fun _ _ => rfl) i (some true) s)
  exact Prod.mk.inj h

theorem lossFollowed_announcements (i : SourceSlot) (s : State) (n : AnnNo) :
    (lossFollowed i s).announcements[n] = endedWith i s.announcements[n] := by
  rw [lossFollowed, announcerLost_announcements, programsFollow_ignores (π := State.announcements)
    (fun _ _ _ _ _ _ _ => rfl) (fun _ _ => rfl)]

theorem overlaidAt_lossFollowed {i : SourceSlot} {s : State} {n : AnnNo}
    (h : announces i .on s.announcements[n] = true) (q : ProgNo) : OverlaidAt q (lossFollowed i s) := by
  refine overlaidAt_announcerLost (n := n) ?_ q
  rwa [programsFollow_ignores (π := State.announcements) (fun _ _ _ _ _ _ _ => rfl) (fun _ _ => rfl)]

/-- A store of which oldest entries went, and which was empty, is so still. -/
theorem SourcesTrimmed.eq_of_empty {s t : State} (h : SourcesTrimmed s t) {i : SourceSlot}
    (he : s.sources[i].store = []) : t.sources[i] = s.sources[i] := by
  obtain ⟨heq, hs⟩ := h i
  rw [he] at hs
  rw [heq, List.suffix_nil.mp hs, ← he]

theorem SourcesTrimmed.role_eq {s t : State} (h : SourcesTrimmed s t) (i : SourceSlot) :
    t.sources[i].role = s.sources[i].role := by rw [(h i).1]

/-- The slot LOST, and the other slots short of oldest entries, once the loss was handed on. -/
theorem handOnLost_sources {s v : State} {i : SourceSlot} (hv : v.sources = s.sources.set i s.sources[i].lost) :
    (handOnLost i v).sources[i] = s.sources[i].lost ∧
      ∀ j : SourceSlot, j ≠ i →
        (handOnLost i v).sources[j] = { s.sources[j] with store := (handOnLost i v).sources[j].store } ∧
          (handOnLost i v).sources[j].store <:+ s.sources[j].store := by
  have htrim : SourcesTrimmed v (handOnLost i v) := ((followKeeps_grown v).handOnLost i v (Grown.refl v)).1
  have hself : v.sources[i] = s.sources[i].lost := by
    rw [hv]; exact modSource_sources_self s i Source.lost
  have hother (j : SourceSlot) (hj : j ≠ i) : v.sources[j] = s.sources[j] := by
    rw [hv]; exact modSource_sources_ne s hj.symm Source.lost
  refine ⟨(htrim.eq_of_empty (by rw [hself]; rfl)).trans hself, fun j hj => ?_⟩
  have h := htrim j
  rwa [hother j hj] at h

theorem freezeGuide_hearing (i : SourceSlot) (s : State) :
    (freezeGuide i s).hearing = s.hearing.map fun r => if r.slot = i then
      { r with frozen := true, silenceDeadline := none, leaveDeadline := none } else r := rfl

theorem freezeGuide_guideFrozen (i : SourceSlot) (s : State) :
    (freezeGuide i s).guideFrozen = s.guideFrozen.set i true := rfl

theorem freezeGuide_announcements (i : SourceSlot) (s : State) :
    (freezeGuide i s).announcements = s.announcements := rfl

theorem overlayView_freezeGuide (i : SourceSlot) (q : ProgNo) (s : State) :
    overlayView q (freezeGuide i s) = overlayView q s := rfl

/-- A guide's records freeze with the loss, and no other source's (R85). -/
theorem handOnLost_hearing {s : State} {i : SourceSlot} :
    (s.sources[i].role = .guide → (handOnLost i s).guideFrozen = s.guideFrozen.set i true ∧
      (handOnLost i s).hearing = s.hearing.map fun r => if r.slot = i then
        { r with frozen := true, silenceDeadline := none, leaveDeadline := none } else r) ∧
    (s.sources[i].role ≠ .guide →
      (handOnLost i s).hearing = s.hearing ∧ (handOnLost i s).guideFrozen = s.guideFrozen) := by
  obtain ⟨hh, hf⟩ := lossFollowed_hearing i s
  have hrole : (lossFollowed i s).sources[i].role = s.sources[i].role :=
    (grown_lossFollowed i s).1.role_eq i
  refine ⟨fun hg => ?_, fun hg => ?_⟩
  · rw [handOnLost_eq, if_pos (hrole.trans hg), freezeGuide_guideFrozen, freezeGuide_hearing, hh, hf]
    exact ⟨rfl, rfl⟩
  · rw [handOnLost_eq, if_neg (fun h => hg (hrole.symm.trans h))]
    exact ⟨hh, hf⟩

/-- Freezing records concerns neither announcements nor overlays. -/
theorem handOnLost_announcements (i : SourceSlot) (s : State) (n : AnnNo) :
    (handOnLost i s).announcements[n] = endedWith i s.announcements[n] := by
  have h : (handOnLost i s).announcements = (lossFollowed i s).announcements := by
    rw [handOnLost_eq]
    split
    · exact freezeGuide_announcements i _
    · rfl
  rw [h, lossFollowed_announcements]

theorem overlaidAt_handOnLost {i : SourceSlot} {s : State} {n : AnnNo}
    (h : announces i .on s.announcements[n] = true) (q : ProgNo) : OverlaidAt q (handOnLost i s) := by
  refine overlaidAt_congr ?_ (overlaidAt_lossFollowed h q)
  rw [handOnLost_eq]
  split
  · exact overlayView_freezeGuide i q _
  · rfl

/-- What of the hub a change of a source's state has no effect on: the settings but port roles, the fleet, the
requests, the last unknown source. -/
def asideOf (s : State) : (Limits × Vector Gain 16 × Vector Zone 8) ×
    (Vector Receiver 320 × Vector Rack 12 × List RecNo × List OutfitOrder) ×
    List Request × Option (BitVec 16) :=
  ((s.limits, s.gains, s.zones), (s.receivers, s.racks, s.pool, s.outfits), s.requests, s.lastUnknown)

/-- The settings, the fleet and the requests of two hubs that agree aside, with the same port roles. -/
theorem settingsKept_of_aside {s t : State} (h : asideOf t = asideOf s) (hp : PortsKept s t) :
    SettingsKept s t ∧ t.receivers = s.receivers ∧ t.racks = s.racks ∧ t.pool = s.pool ∧
      t.outfits = s.outfits ∧ t.requests = s.requests ∧ t.lastUnknown = s.lastUnknown := by
  simp only [asideOf, Prod.mk.injEq] at h
  obtain ⟨⟨hl, hg, hz⟩, ⟨hr, hk, hpool, ho⟩, hq, hu⟩ := h
  exact ⟨⟨hl, hg, hz, fun p => (hp p).1⟩, hr, hk, hpool, ho, hq, hu⟩

/-- LOST_DEADLINE_EXPIRY of a LIVE source whose deadline is due (R9). -/
theorem exec_lostDeadlineExpiry {s : State} {i : SourceSlot} (hrun : s.phase = .running)
    (hlive : s.sources[i].state = .live) (hdue : s.due s.sources[i].lostDeadline = true) :
    exec (.lostDeadlineExpiry i) s = .next (loseSource i s) := by
  change execLostDeadlineExpiry i s = _
  rw [execLostDeadlineExpiry, running_of_running s hrun, lostExpiry, if_pos ⟨hlive, hdue⟩]

/-- Settles O24: the slot is LOST, SOURCE_LOST is queued, and `handOnLost` takes its steps from there. -/
theorem lostDeadlineMakesTheSourceLost : Obligations.LostDeadlineMakesTheSourceLost := by
  unfold Obligations.LostDeadlineMakesTheSourceLost
  intro s i hrun hlive hdue
  obtain ⟨ps, hlose⟩ := loseSource_eq i s
  rw [exec_lostDeadlineExpiry hrun hlive hdue, hlose]
  generalize hw : ({ s with sources := s.sources.set i s.sources[i].lost, programs := ps } : State) = w
  generalize hq : queueNotice .sourceLost (some (BitVec.ofNat 16 i.val)) s.sources[i].id
    (BitVec.ofNat 16 ((s.sources[i].newest.map (·.toNat)).getD 0xFFFF)) w = v
  have hsources : v.sources = s.sources.set i s.sources[i].lost := by rw [← hq, ← hw]; simp
  have hann : v.announcements = s.announcements := by rw [← hq, ← hw]; simp
  have hhear : v.hearing = s.hearing := by rw [← hq, ← hw]; simp
  have hfrozen : v.guideFrozen = s.guideFrozen := by rw [← hq, ← hw]; simp
  have hrole : v.sources[i].role = s.sources[i].role := by rw [hsources]; simp [Source.lost]
  have haside : asideOf v = asideOf s := by rw [← hq, ← hw]; simp [asideOf]
  have hports : PortsKept s v := by rw [← hq, ← hw]; intro p; simp
  have hgrown : Grown v (handOnLost i v) := (followKeeps_grown v).handOnLost i v (Grown.refl v)
  obtain ⟨hself, hothers⟩ := handOnLost_sources hsources
  obtain ⟨hguide, hnoguide⟩ := handOnLost_hearing (s := v) (i := i)
  rw [hrole, hhear, hfrozen] at hguide hnoguide
  obtain ⟨hset, hrec, hrack, hpool, hout, hreq, -⟩ := settingsKept_of_aside
    ((handOnLost_ignores (π := asideOf) (fun _ _ _ _ _ _ _ => rfl) (fun _ _ _ _ _ _ => rfl) i v).trans haside)
    (hports.trans hgrown.2.1)
  refine ⟨_, rfl, hself, hothers, fun he hroom => ?_, hguide, hnoguide, fun n => ?_, fun n a ha hi ho q => ?_,
    hset, hrec, hrack, hpool, hout, hreq⟩
  · refine List.IsPrefix.trans ?_ hgrown.2.2
    rw [← hq, queueNotice_room w (hw ▸ he) (hw ▸ hroom), ← hw]
  · exact (handOnLost_announcements i v n).trans (by rw [hann]; rfl)
  · refine overlaidAt_handOnLost (n := n) ?_ q
    rw [hann]
    exact announces_iff.mpr ⟨a, ha, hi, ho⟩

end Sys2Proof.Machine
end

section
/-! WRITE_ENTRY on SOURCE (R18, R19). -/

namespace Sys2Proof.Machine

open Laws

/-! ### A write of one field -/

/-- The operands of a write of one field are read as they were laid out (Table 11-8). -/
theorem parseWrite_writeOne {tag : BitVec 16} {table index field v : Nat} (ht : table < 256)
    (hi : index < 65536) (hf : field < 256) (hv : v < 4294967296) :
    parseWrite (requestPayload tag 2 (writeOne table index field v)) = some ⟨table, index, [(field, v)]⟩ := by
  have hlen : (writeOne table index field v).length = 10 := rfl
  have h0 : byteAt (writeOne table index field v) 0 = table := byteAt_put8 table _ ht
  have h1 : byteAt (writeOne table index field v) 1 = 0 := rfl
  have h2 : wordAt (writeOne table index field v) 2 = index :=
    wordAt_put16 index (put8 1 ++ (put8 field ++ put32 v)) hi
  have h4 : byteAt (writeOne table index field v) 4 = 1 := rfl
  have hitems : parseItems 1 ((writeOne table index field v).drop 5) = [(field, v)] := by
    have hb : byteAt ((writeOne table index field v).drop 5) 0 = field := byteAt_put8 field (put32 v) hf
    have hl : longAt ((writeOne table index field v).drop 5) 1 = v := longAt_put32 v [] hv
    simp only [parseItems, hb, hl]
  simp only [parseWrite, headerOk_requestPayload, operandsOf_requestPayload, hlen, h0, h1, h2, h4, hitems]
  rfl

theorem valueFor_one (field v g : Nat) : valueFor [(field, v)] g = if field = g then some v else none := by
  by_cases h : field = g <;> simp [valueFor, h]

section
variable {s : State} {p : PortNo} {rest : List Request} {tag : BitVec 16} {i : SourceSlot} {field v : Nat}

/-- A write of one of the four settings of a slot: refused RANGE, refused REFUSED_STATE, or taken (R151, R153). -/
theorem writeEntry_source (hf : 1 ≤ field ∧ field ≤ 4) (s : State) :
    writeEntry p ⟨1, i.val, [(field, v)]⟩ s =
      if sourceRange [(field, v)] then refuse .range s
      else if sourceRefused s i [(field, v)] then refuse .refusedState s
      else done (entryResult (writeSource i [(field, v)] s) .source i.val) (writeSource i [(field, v)] s) := by
  obtain ⟨h1, h4⟩ := hf
  have hknown : fieldsKnown .source ⟨1, i.val, [(field, v)]⟩ = true := by
    have h10 : field ≤ 10 := by omega
    simp [fieldsKnown, Table.hasField, Table.fields, h1, h10]
  have hwritable : ([(field, v)].all fun x => Table.source.isWritable x.1) = true := by
    simp [Table.isWritable, h4]
  have hentries : ¬ Table.source.entries ≤ i.val := Nat.not_le.mpr i.isLt
  have hown : ownRoleChange p .source ⟨1, i.val, [(field, v)]⟩ s = none := by
    simp [ownRoleChange]
  have htaken : takeWrite p .source ⟨1, i.val, [(field, v)]⟩ s =
      done (entryResult (writeSource i [(field, v)] s) .source i.val) (writeSource i [(field, v)] s) := by
    simp only [takeWrite, hown, applyWrite, toFin_val]
    rfl
  simp only [writeEntry, tableOf, hknown, writeFailure, hwritable, hentries, writeRange, writeRefused, toFin_val,
    htaken]
  by_cases hr : sourceRange [(field, v)] = true
  · simp only [hr, if_true]; rfl
  · simp only [hr]; rfl

/-- Serving the write at the head of the queue. -/
theorem exec_writeEntry_source (hf : 1 ≤ field ∧ field ≤ 4) (hv : v < 4294967296)
    (hs : Serving s p (requestPayload tag 2 (writeOne 1 i.val field v)) rest) :
    exec .writeEntry s =
      let x := if sourceRange [(field, v)] then refuse .range { s with requests := rest }
        else if sourceRefused { s with requests := rest } i [(field, v)] then
          refuse .refusedState { s with requests := rest }
        else done (entryResult (writeSource i [(field, v)] { s with requests := rest }) .source i.val)
          (writeSource i [(field, v)] { s with requests := rest })
      .next (x.after (respond p (.response tag 2 x.status x.result) x.state)) := by
  have hi := i.isLt
  refine (serveHead_of_serving hs rfl).trans ?_
  rw [serveWrite, parseWrite_writeOne (by decide) (by omega) (by omega) hv]
  simp only [writeEntry_source hf]
  rfl

theorem writeRefused_range (hf : 1 ≤ field ∧ field ≤ 4) (hv : v < 4294967296)
    (hs : Serving s p (requestPayload tag 2 (writeOne 1 i.val field v)) rest)
    (hr : sourceRange [(field, v)] = true) : WriteRefused s p rest tag .range := by
  refine (exec_writeEntry_source hf hv hs).trans ?_
  simp only [hr, if_true]
  rfl

theorem writeRefused_state (hf : 1 ≤ field ∧ field ≤ 4) (hv : v < 4294967296)
    (hs : Serving s p (requestPayload tag 2 (writeOne 1 i.val field v)) rest)
    (hr : sourceRange [(field, v)] = false) (hd : sourceRefused s i [(field, v)] = true) :
    WriteRefused s p rest tag .refusedState := by
  refine (exec_writeEntry_source hf hv hs).trans ?_
  have hd' : sourceRefused { s with requests := rest } i [(field, v)] = true := hd
  simp only [hr, hd', if_true]
  rfl

theorem writeTaken_source (hf : 1 ≤ field ∧ field ≤ 4) (hv : v < 4294967296)
    (hs : Serving s p (requestPayload tag 2 (writeOne 1 i.val field v)) rest)
    (hr : sourceRange [(field, v)] = false) (hd : sourceRefused s i [(field, v)] = false) :
    WriteTaken s (writeSource i [(field, v)] { s with requests := rest }) p tag .source i.val := by
  refine (exec_writeEntry_source hf hv hs).trans ?_
  have hd' : sourceRefused { s with requests := rest } i [(field, v)] = false := hd
  simp only [hr, hd']
  rfl

end

/-! ### What is refused (R18, R19) -/

theorem isAnnouncer_iff {s : State} {i : SourceSlot} {st : AnnState} : isAnnouncer s i st = true ↔
    ∃ n : AnnNo, ∃ a, s.announcements[n] = some a ∧ a.slot = i ∧ a.state = st := by
  have hrec (n : AnnNo) : (match s.announcements[n] with
      | none => false
      | some a => a.slot == i && a.state == st) = true ↔
      ∃ a, s.announcements[n] = some a ∧ a.slot = i ∧ a.state = st := by
    cases s.announcements[n] <;> simp
  rw [isAnnouncer, List.any_eq_true]
  exact ⟨fun ⟨n, _, h⟩ => ⟨n, (hrec n).mp h⟩, fun ⟨n, h⟩ => ⟨n, mem_fins n, (hrec n).mpr h⟩⟩

/-- The three references of R19. -/
theorem isReferenced_iff {s : State} {i : SourceSlot} : isReferenced s i = true ↔
    (∃ t : TourNo, s.tours[t].state = .opened ∧ s.tours[t].guide = some i) ∨
      (∃ q : ProgNo, s.programs[q].mode = .interpreter ∧ s.programs[q].interpreter = some i ∧
        s.tours[tourOf q].state = .opened) ∨
      ∃ n : AnnNo, ∃ a, s.announcements[n] = some a ∧ a.slot = i ∧ a.state = .on := by
  simp only [isReferenced, Bool.or_eq_true, List.any_eq_true, Bool.and_eq_true, beq_iff_eq, mem_fins, true_and,
    isAnnouncer_iff, or_assoc, and_assoc]

theorem idElsewhere_iff {s : State} {i : SourceSlot} {id : Option (BitVec 16)} :
    idElsewhere s i id = true ↔ id ≠ none ∧ ∃ j : SourceSlot, j ≠ i ∧ s.sources[j].id = id := by
  simp only [idElsewhere, Bool.and_eq_true, List.any_eq_true, mem_fins, true_and, bne_iff_ne, beq_iff_eq,
    Option.isSome_iff_ne_none]

/-- A write is refused for what it changes: id and role of a referenced slot, an id held elsewhere, the role of a
slot that a PENDING announcement names (R19). -/
theorem sourceRefused_iff {s : State} {i : SourceSlot} {items : List (Nat × Nat)} :
    sourceRefused s i items = true ↔
      ((idAfter s.sources[i] items ≠ s.sources[i].id ∨ roleAfter s.sources[i] items ≠ s.sources[i].role) ∧
        isReferenced s i = true) ∨
      (idAfter s.sources[i] items ≠ s.sources[i].id ∧ idElsewhere s i (idAfter s.sources[i] items) = true) ∨
      (roleAfter s.sources[i] items ≠ s.sources[i].role ∧ isAnnouncer s i .waiting = true) := by
  simp only [sourceRefused, Bool.or_eq_true, Bool.and_eq_true, bne_iff_ne, or_assoc]

/-- A write that changes neither id nor role is never refused REFUSED_STATE. -/
theorem sourceRefused_of_same {s : State} {i : SourceSlot} {items : List (Nat × Nat)}
    (hid : idAfter s.sources[i] items = s.sources[i].id)
    (hrole : roleAfter s.sources[i] items = s.sources[i].role) : sourceRefused s i items = false := by
  rw [Bool.eq_false_iff, Ne, sourceRefused_iff]
  rintro (⟨h | h, -⟩ | ⟨h, -⟩ | ⟨h, -⟩)
  · exact h hid
  · exact h hrole
  · exact h hid
  · exact h hrole

/-! ### What a taken write does (R18, R19, R87) -/

/-- A slot forgotten by the hearing table (R87; the frozen mark: log entry 18). -/
theorem forgetGuide_eq (i : SourceSlot) (s : State) : forgetGuide i s = { s with
    hearing := s.hearing.filter fun x => x.slot ≠ i, guideFrozen := s.guideFrozen.set i false } := by
  have hfilter : (fun x : HearingRecord => !(x.slot == i)) = fun x => decide (x.slot ≠ i) := by
    funext x; by_cases h : x.slot = i <;> simp [h]
  rw [forgetGuide, hfilter]

/-- A write that keeps the id: the settings and the generation; a slot that is no guide any more loses its hearing
records. -/
theorem writeSource_of_same_id {s : State} {i : SourceSlot} {items : List (Nat × Nat)}
    (hid : idAfter s.sources[i] items = s.sources[i].id) : writeSource i items s = { s with
      sources := s.sources.set i { s.sources[i] with
        role := roleAfter s.sources[i] items
        gainStep := (valueFor items 3).elim s.sources[i].gainStep (Fin.ofNat 16)
        mute := (valueFor items 4).elim s.sources[i].mute (· == 1)
        generation := s.sources[i].generation + 1 }
      hearing := if s.sources[i].role = .guide ∧ roleAfter s.sources[i] items ≠ .guide then
        s.hearing.filter fun x => x.slot ≠ i else s.hearing
      guideFrozen := if s.sources[i].role = .guide ∧ roleAfter s.sources[i] items ≠ .guide then
        s.guideFrozen.set i false else s.guideFrozen } := by
  by_cases hg : s.sources[i].role = .guide ∧ roleAfter s.sources[i] items ≠ .guide
  · simp only [writeSource, if_pos hid, if_pos hg, forgetGuide_eq, State.modSource]
    rw [Fin.getElem_fin] at hid
    simp [hid]
  · simp only [writeSource, if_pos hid, if_neg hg, State.modSource]
    rw [Fin.getElem_fin] at hid
    simp [hid]

/-- The slot that took another id, or lost its id, before its generation (R19). -/
def Source.renamed (r : Source) (id : Option (BitVec 16)) : Source :=
  { r with id := id, store := [], newest := none, lostDeadline := none
           state := if id = none then .unused else .idle }

/-- Programs that follow a source without a flag change what the mix engine changes. -/
theorem programsFollow_none_eq (i : SourceSlot) (s : State) : programsFollow i none s = { s with
    sources := (programsFollow i none s).sources, programs := (programsFollow i none s).programs
    ports := (programsFollow i none s).ports, notices := (programsFollow i none s).notices
    noticeOverflow := (programsFollow i none s).noticeOverflow, log := (programsFollow i none s).log } := by
  have h := programsFollow_keeps (mixKeeps_of_ignores (π := fun t => { t with
    sources := s.sources, programs := s.programs, ports := s.ports, notices := s.notices
    noticeOverflow := s.noticeOverflow, log := s.log }) (fun _ _ _ _ _ _ _ => rfl) s) i none s rfl
  generalize programsFollow i none s = t at h
  rw [← h]

theorem not_announces_of_isAnnouncer {s : State} {i : SourceSlot} {st : AnnState}
    (h : isAnnouncer s i st = false) (n : AnnNo) : announces i st s.announcements[n] = false :=
  Bool.eq_false_iff.mpr fun hn => Bool.eq_false_iff.mp h
    (isAnnouncer_iff.mpr ⟨n, announces_iff.mp hn⟩)

/-- A slot that took its id anew, when no ON announcement names it: the slot and its hearing records, and then the
programs that follow (R19, R87). -/
theorem renameSource_eq {s : State} {i : SourceSlot} (hann : isAnnouncer s i .on = false) :
    ∃ ps, renameSource i s = programsFollow i none { s with
      sources := s.sources.set i (s.sources[i].renamed s.sources[i].id), programs := ps
      hearing := s.hearing.filter fun x => x.slot ≠ i
      guideFrozen := s.guideFrozen.set i false } := by
  refine ⟨(emptyStore i s).programs, ?_⟩
  have hstate : (if s.sources[i].id.isSome then SourceState.idle else .unused) =
      if s.sources[i].id = none then .unused else .idle := by
    cases s.sources[i].id <;> rfl
  have hslot : forgetGuide i ((emptyStore i s).modSource i fun r =>
      { r with lostDeadline := none, state := if r.id.isSome then .idle else .unused }) = { s with
      sources := s.sources.set i (s.sources[i].renamed s.sources[i].id), programs := (emptyStore i s).programs
      hearing := s.hearing.filter fun x => x.slot ≠ i
      guideFrozen := s.guideFrozen.set i false } := by
    rw [emptyStore_eq, forgetGuide_eq]
    rw [Fin.getElem_fin] at hstate
    simp [State.modSource, Source.renamed, hstate]
  change announcerLost i (programsFollow i none (forgetGuide i ((emptyStore i s).modSource i fun r =>
    { r with lostDeadline := none, state := if r.id.isSome then .idle else .unused }))) = _
  rw [hslot]
  refine announcerLost_of_none fun n => ?_
  rw [programsFollow_none_eq]
  exact not_announces_of_isAnnouncer hann n

/-- A taken write of another id, for a slot that no ON announcement names (R19). -/
theorem writeSource_of_other_id {s : State} {i : SourceSlot} {v : Nat} {id : Option (BitVec 16)}
    (hid : idAfter s.sources[i] [(1, v)] = id) (hne : id ≠ s.sources[i].id)
    (hann : isAnnouncer s i .on = false) : ∃ ps, writeSource i [(1, v)] s =
      (programsFollow i none { s with
        sources := s.sources.set i (s.sources[i].renamed id), programs := ps
        hearing := s.hearing.filter fun x => x.slot ≠ i
        guideFrozen := s.guideFrozen.set i false }).modSource i
          fun r => { r with generation := r.generation + 1 } := by
  subst hid
  obtain ⟨ps, h⟩ := renameSource_eq (s := s.modSource i fun r => { r with
    id := idAfter s.sources[i] [(1, v)] }) (i := i) hann
  have hrole : ¬ (s.sources[i].role = .guide ∧ roleAfter s.sources[i] [(1, v)] ≠ .guide) :=
    fun ⟨hg, hn⟩ => hn hg
  refine ⟨ps, ?_⟩
  have hw : writeSource i [(1, v)] s = (renameSource i (s.modSource i fun r => { r with
      id := idAfter s.sources[i] [(1, v)] })).modSource i fun r => { r with generation := r.generation + 1 } := by
    simp only [writeSource, if_neg hne, if_neg hrole]
    rfl
  rw [hw, h]
  simp [State.modSource, Source.renamed]

/-! ### The ranges of a slot's settings (R18) -/

theorem sourceRange_gain (v : Nat) : sourceRange [(3, v)] = decide (15 < v) := by
  simp [sourceRange, valueFor_one, writtenAbove]

theorem sourceRange_mute (v : Nat) : sourceRange [(4, v)] = decide (1 < v) := by
  simp [sourceRange, valueFor_one, writtenAbove]

theorem sourceRange_role (v : Nat) : sourceRange [(2, v)] = (sourceRoleOf v).isNone := by
  simp [sourceRange, valueFor_one, writtenAbove]

theorem sourceRange_id (v : Nat) :
    sourceRange [(1, v)] = decide (v ≠ 0xFFFFFFFF ∧ (v = 0 ∨ 65534 < v)) := by
  rw [Bool.eq_iff_iff]
  simp [sourceRange, valueFor_one, writtenAbove, absent32]

theorem sourceRoleOf_eq_none {v : Nat} (h : v = 0 ∨ 3 < v) : sourceRoleOf v = none := by
  rcases h with rfl | h
  · rfl
  · obtain ⟨m, rfl⟩ : ∃ m, v = m + 4 := ⟨v - 4, by omega⟩
    rfl

theorem sourceRoleOf_code (r : SourceRole) : sourceRoleOf r.code = some r := by cases r <;> rfl

theorem roleAfter_code (e : Source) (r : SourceRole) : roleAfter e [(2, r.code)] = r := by
  simp [roleAfter, valueFor_one, sourceRoleOf_code]

/-- The id that a code names (R18). -/
theorem idAfter_of_code (e : Source) {v : Nat} {id : Option (BitVec 16)}
    (h : (id = none ∧ v = 0xFFFFFFFF) ∨ (1 ≤ v ∧ v ≤ 65534 ∧ id = some (BitVec.ofNat 16 v))) :
    idAfter e [(1, v)] = id := by
  rcases h with ⟨rfl, rfl⟩ | ⟨-, hv, rfl⟩
  · rfl
  · have hne : v ≠ absent32 := by simp only [absent32]; omega
    simp [idAfter, valueFor_one, writtenValue, hne]

/-! ### The four fields -/

section
variable {s : State} {p : PortNo} {rest : List Request} {tag : BitVec 16} {i : SourceSlot} {field v : Nat}

/-- A write in range that changes neither id nor role writes gain step, mute and generation, and nothing else. -/
theorem writeTaken_of_same (hf : 1 ≤ field ∧ field ≤ 4) (hv : v < 4294967296)
    (hs : Serving s p (requestPayload tag 2 (writeOne 1 i.val field v)) rest)
    (hr : sourceRange [(field, v)] = false) (hid : idAfter s.sources[i] [(field, v)] = s.sources[i].id)
    (hrole : roleAfter s.sources[i] [(field, v)] = s.sources[i].role) {gain : GainStep} {mute : Bool}
    (hgain : (valueFor [(field, v)] 3).elim s.sources[i].gainStep (Fin.ofNat 16) = gain)
    (hmute : (valueFor [(field, v)] 4).elim s.sources[i].mute (· == 1) = mute) :
    WriteTaken s { s with
        requests := rest
        sources := s.sources.set i { s.sources[i] with
          gainStep := gain, mute := mute, generation := s.sources[i].generation + 1 } } p tag .source i.val := by
  have hw := writeTaken_source hf hv hs hr (sourceRefused_of_same hid hrole)
  have hnot : ¬ (s.sources[i].role = .guide ∧ s.sources[i].role ≠ .guide) := fun ⟨hg, hn⟩ => hn hg
  have he := writeSource_of_same_id (s := { s with requests := rest }) hid
  simp only [hrole, hgain, hmute, if_neg hnot] at he
  rwa [he] at hw

/-- A write of another role in range and not refused: a guide that is none any more loses its records (R19, R87). -/
theorem writeTaken_role {r : SourceRole}
    (hs : Serving s p (requestPayload tag 2 (writeOne 1 i.val 2 r.code)) rest)
    (hd : sourceRefused s i [(2, r.code)] = false) :
    WriteTaken s { s with
        requests := rest
        sources := s.sources.set i { s.sources[i] with role := r, generation := s.sources[i].generation + 1 }
        hearing := if s.sources[i].role = .guide ∧ r ≠ .guide then
          s.hearing.filter fun x => x.slot ≠ i else s.hearing
        guideFrozen := if s.sources[i].role = .guide ∧ r ≠ .guide then s.guideFrozen.set i false
          else s.guideFrozen } p tag .source i.val := by
  have hw := writeTaken_source (by omega) (by cases r <;> decide) hs
    (by rw [sourceRange_role, sourceRoleOf_code]; rfl) hd
  rwa [writeSource_of_same_id (s := { s with requests := rest }) rfl, roleAfter_code] at hw

/-- The refusal of a write of a role (R19). -/
theorem sourceRefused_role_iff {r : SourceRole} : sourceRefused s i [(2, r.code)] = true ↔
    r ≠ s.sources[i].role ∧ (isReferenced s i = true ∨ isAnnouncer s i .waiting = true) := by
  have hid : idAfter s.sources[i] [(2, r.code)] = s.sources[i].id := rfl
  rw [sourceRefused_iff, hid, roleAfter_code]
  simp only [ne_eq, not_true, false_or, false_and]
  exact and_or_left.symm

/-- The refusal of a write of an id (R19). -/
theorem sourceRefused_id_iff {id : Option (BitVec 16)} (hid : idAfter s.sources[i] [(1, v)] = id) :
    sourceRefused s i [(1, v)] = true ↔
      id ≠ s.sources[i].id ∧ (isReferenced s i = true ∨ idElsewhere s i id = true) := by
  have hrole : roleAfter s.sources[i] [(1, v)] = s.sources[i].role := rfl
  rw [sourceRefused_iff, hid, hrole]
  simp only [ne_eq, not_true, or_false, false_and]
  exact and_or_left.symm

/-- An announcement names the slot, ON or PENDING. -/
theorem named_iff : (∃ n : AnnNo, ∃ a, s.announcements[n] = some a ∧ a.slot = i) ↔
    isAnnouncer s i .on = true ∨ isAnnouncer s i .waiting = true := by
  rw [isAnnouncer_iff, isAnnouncer_iff]
  constructor
  · rintro ⟨n, a, ha, hi⟩
    cases hst : a.state with
    | on => exact .inl ⟨n, a, ha, hi, hst⟩
    | waiting => exact .inr ⟨n, a, ha, hi, hst⟩
  · rintro (⟨n, a, ha, hi, -⟩ | ⟨n, a, ha, hi, -⟩) <;> exact ⟨n, a, ha, hi⟩

theorem isReferenced_of_isAnnouncer (h : isAnnouncer s i .on = true) : isReferenced s i = true :=
  isReferenced_iff.mpr (.inr (.inr (isAnnouncer_iff.mp h)))

/-- A write of another id in range and not refused: the slot takes it with an empty store, its hearing records go, and
the programs that named it follow (R19, R87). -/
theorem writeTaken_other_id {id : Option (BitVec 16)} (hv : v < 4294967296)
    (hs : Serving s p (requestPayload tag 2 (writeOne 1 i.val 1 v)) rest)
    (hr : sourceRange [(1, v)] = false) (hid : idAfter s.sources[i] [(1, v)] = id) (hne : id ≠ s.sources[i].id)
    (hrefs : isReferenced s i = false) (helse : idElsewhere s i id = false) :
    ∃ u, WriteTaken s u p tag .source i.val ∧
      u.sources[i] = { s.sources[i].renamed id with generation := s.sources[i].generation + 1 } ∧
      (∀ j : SourceSlot, j ≠ i → u.sources[j] = { s.sources[j] with store := u.sources[j].store } ∧
        u.sources[j].store <:+ s.sources[j].store) ∧
      u.hearing = (s.hearing.filter fun x => x.slot ≠ i) ∧
      u.guideFrozen = s.guideFrozen.set i false ∧ PortsKept s u ∧ NoticesGrow s u ∧
      u = { s with
            requests := rest, sources := u.sources, hearing := u.hearing
            guideFrozen := u.guideFrozen, programs := u.programs, ports := u.ports
            notices := u.notices, noticeOverflow := u.noticeOverflow, log := u.log } := by
  have hd : sourceRefused s i [(1, v)] = false := by
    rw [Bool.eq_false_iff, Ne, sourceRefused_id_iff hid]
    simp [hrefs, helse]
  have hann : isAnnouncer s i .on = false :=
    Bool.eq_false_iff.mpr fun h => Bool.eq_false_iff.mp hrefs (isReferenced_of_isAnnouncer h)
  obtain ⟨ps, hw⟩ := writeSource_of_other_id (s := { s with requests := rest }) hid hne hann
  have htaken := writeTaken_source (by omega) hv hs hr hd
  rw [hw] at htaken
  generalize hwv : ({ s with
    requests := rest, sources := s.sources.set i (s.sources[i].renamed id), programs := ps
    hearing := s.hearing.filter fun x => x.slot ≠ i, guideFrozen := s.guideFrozen.set i false } : State) = w
    at htaken
  have hgrown : Grown w (programsFollow i none w) := (followKeeps_grown w).programsFollow i none w (Grown.refl w)
  have heq := programsFollow_none_eq i w
  generalize programsFollow i none w = t at htaken hgrown heq
  have hself : w.sources[i] = s.sources[i].renamed id := by
    rw [← hwv]; exact modSource_sources_self s i fun r => r.renamed id
  have hother (j : SourceSlot) (hj : j ≠ i) : w.sources[j] = s.sources[j] := by
    rw [← hwv]; exact modSource_sources_ne s hj.symm fun r => r.renamed id
  refine ⟨_, htaken, ?_, fun j hj => ?_, ?_, ?_, ?_, ?_, ?_⟩
  · rw [modSource_sources_self, hgrown.1.eq_of_empty (by rw [hself]; rfl), hself]
    rfl
  · have h := hgrown.1 j
    rw [hother j hj] at h
    rwa [modSource_sources_ne _ hj.symm]
  · rw [State.modSource_hearing, heq, ← hwv]
  · rw [State.modSource_guideFrozen, heq, ← hwv]
  · have hports : PortsKept s w := by rw [← hwv]; exact fun _ => ⟨rfl, rfl, rfl⟩
    exact hports.trans hgrown.2.1
  · have hnotices : NoticesGrow s w := by rw [← hwv]; exact List.prefix_refl _
    exact List.IsPrefix.trans hnotices hgrown.2.2
  · rw [heq, ← hwv]
    rfl

end

/-- Settles O55: each field by its range, its refusals and what its write does. -/
theorem writeEntrySetsASource : Obligations.WriteEntrySetsASource := by
  unfold Obligations.WriteEntrySetsASource
  intro s p rest tag i field v hv hs referenced named
  have hreferenced : isReferenced s i = true ↔ referenced := isReferenced_iff
  have hnamed : referenced ∨ named ↔ isReferenced s i = true ∨ isAnnouncer s i .waiting = true := by
    rw [← hreferenced, show named ↔ _ from named_iff, ← or_assoc, or_iff_left_of_imp isReferenced_of_isAnnouncer]
  refine ⟨?_, ?_, ?_, ?_⟩
  · rintro rfl
    exact ⟨fun h => writeTaken_of_same (by omega) hv hs
      (by rw [sourceRange_gain]; exact decide_eq_false (by omega)) rfl rfl rfl rfl,
      fun h => writeRefused_range (by omega) hv hs (by rw [sourceRange_gain]; exact decide_eq_true h)⟩
  · rintro rfl
    exact ⟨fun h => writeTaken_of_same (by omega) hv hs
      (by rw [sourceRange_mute]; exact decide_eq_false (by omega)) rfl rfl rfl rfl,
      fun h => writeRefused_range (by omega) hv hs (by rw [sourceRange_mute]; exact decide_eq_true h)⟩
  · rintro rfl
    refine ⟨fun h => writeRefused_range (by omega) hv hs
      (by rw [sourceRange_role, sourceRoleOf_eq_none h]; rfl), ?_⟩
    rintro r rfl
    refine ⟨fun hne hnm => ?_, fun h => writeTaken_role hs ?_⟩
    · exact writeRefused_state (by omega) hv hs (by rw [sourceRange_role, sourceRoleOf_code]; rfl)
        (sourceRefused_role_iff.mpr ⟨hne, hnamed.mp hnm⟩)
    · rw [Bool.eq_false_iff, Ne, sourceRefused_role_iff, ← hnamed]
      exact fun ⟨hne, hnm⟩ => h.elim hne fun hn => hn hnm
  · rintro rfl
    refine ⟨fun h => writeRefused_range (by omega) hv hs
      (by rw [sourceRange_id]; exact decide_eq_true (by omega)), fun id hcode => ?_⟩
    have hid := idAfter_of_code s.sources[i] hcode
    have hr : sourceRange [(1, v)] = false := by
      rw [sourceRange_id]; exact decide_eq_false (by omega)
    refine ⟨fun he => writeTaken_of_same (by omega) hv hs hr (hid.trans he) rfl rfl rfl, fun hne hrefs => ?_,
      fun hne hrefs helse => ?_⟩
    · refine writeRefused_state (by omega) hv hs hr ((sourceRefused_id_iff hid).mpr ⟨hne, ?_⟩)
      rwa [hreferenced, idElsewhere_iff]
    · refine writeTaken_other_id hv hs hr hid hne (Bool.eq_false_iff.mpr (mt hreferenced.mp hrefs))
        (Bool.eq_false_iff.mpr fun h => ?_)
      obtain ⟨hn, j, hj, hjd⟩ := idElsewhere_iff.mp h
      exact helse hn j hj hjd

end Sys2Proof.Machine
end

section
/-! What blocks, carriers and gallery sets leave alone: the same events as in Laws/Keeps.lean, kept under fewer
conditions. A block leaves of a program all but its readers, its block count and deadline and its CLIP fields; a demand
leaves all but galleries and what frames and notices change; the hearing table reaches the rest of the hub only by the
joins and leaves of galleries. -/

namespace Sys2Proof.Laws

open Sys2Proof.Machine

variable {P : State → Prop}

/-! ### Chapter 3: blocks -/

/-- Kept by the primitive changes of a block. -/
structure BlockKeeps (P : State → Prop) : Prop where
  trim : ∀ (s : State) i q, P s → P (s.modSource i fun r => { r with store := r.store.dropWhile q })
  program : ∀ (s : State) p (f : Program → Program), (∀ r, f r = { r with
      lead := (f r).lead, floor := (f r).floor, overlay := (f r).overlay, blockCount := (f r).blockCount
      blockDeadline := (f r).blockDeadline, clip := (f r).clip, clipCount := (f r).clipCount }) →
    P s → P (s.modProgram p f)
  notice : ∀ k a b d s, P s → P (queueNotice k a b d s)
  frame : ∀ p f s, P s → P (handFrame p f s)

namespace BlockKeeps

variable (h : BlockKeeps P)
include h

theorem reader (p k) (x : Program → Reader) (s : State) (hs : P s) :
    P (s.modProgram p fun r => r.setReader k (x r)) :=
  h.program s p _ (fun r => by cases k <;> rfl) hs

theorem recordClip (p n) (s : State) (hs : P s) : P (recordClip p n s) := by
  have h1 := h.program s p (fun r => { r with clip := true, clipCount := min 65535 (r.clipCount + 1) })
    (fun _ => rfl) hs
  exact ite_keeps h1 (h.notice _ _ _ _ _ h1)

theorem applyRemoval (i) (s : State) (hs : P s) : P (applyRemoval i s) :=
  ite_keeps hs (h.trim _ _ _ hs)

theorem concealReader (p k) (s : State) (hs : P s) : P (concealReader p k s).1 :=
  h.reader p k (fun _ => { s.programs[p].reader k with conceal := (s.programs[p].reader k).conceal.step }) s hs

theorem answerTake (p k i a) (s : State) (hs : P s) : P (answerTake p k i a s).1 := by
  cases a with
  | none => exact h.concealReader p k s hs
  | some e => exact h.applyRemoval _ _ (h.reader p k _ s hs)

theorem leadSamples (p input) (s : State) (hs : P s) : P (leadSamples p input s).1 := by
  cases input with
  | conceal => exact h.concealReader p _ s hs
  | target b =>
    exact h.program s p (fun r => { r with lead := { r.lead with conceal := .fresh, prev := some b } })
      (fun _ => rfl) hs
  | take n =>
    unfold Machine.leadSamples
    dsimp only
    split
    · exact h.concealReader p _ s hs
    · exact h.answerTake _ _ _ _ s hs

theorem floorSamples (p) (s : State) (hs : P s) : P (floorSamples p s).1 := by
  unfold Machine.floorSamples
  split
  · exact hs
  · exact h.answerTake _ _ _ _ s hs

theorem overlaySamples (p) (s : State) (hs : P s) : P (overlaySamples p s).1 := by
  unfold Machine.overlaySamples
  split
  · exact hs
  · exact h.answerTake _ _ _ _ s hs

theorem mixBlock (p input) (s : State) (hs : P s) : P (mixBlock p input s).1 :=
  h.overlaySamples p _ (h.floorSamples p _ (h.leadSamples p input s hs))

theorem deliver (p b) (s : State) (hs : P s) : P (deliver p b s) := by
  refine forEach_keeps _ (fun g s hs => ?_) s hs
  split
  · exact hs
  · exact h.frame _ _ _ hs

theorem countAndSend (p cs) (s : State) (hs : P s) : P (countAndSend p cs s) := by
  have h1 := h.program s p (fun r => { r with blockCount := r.blockCount + 1 }) (fun _ => rfl) hs
  exact h.deliver _ _ _ (ite_keeps (h.recordClip _ _ _ h1) h1)

theorem setBlockDeadline (p) (s : State) (hs : P s) : P (setBlockDeadline p s) :=
  h.program s p _ (fun _ => rfl) hs

theorem linkedBlock (b q) (s : State) (hs : P s) : P (linkedBlock b q s) :=
  h.setBlockDeadline _ _ (h.countAndSend _ _ _ (h.mixBlock _ _ _ hs))

theorem blockEvent (p input) (s : State) (hs : P s) : P (blockEvent p input s) :=
  h.setBlockDeadline _ _ (forEach_keeps _ (fun q t ht => h.linkedBlock _ q t ht) _
    (h.countAndSend _ _ _ (h.mixBlock _ _ _ hs)))

theorem catchUpRounds (n p) (s : State) (hs : P s) : P (catchUpRounds n p s) := by
  induction n generalizing s with
  | zero => exact hs
  | succ n ih =>
    unfold Machine.catchUpRounds
    split
    · exact hs
    · exact ih _ (h.blockEvent _ _ _ hs)

theorem catchUp (p) (s : State) (hs : P s) : P (catchUp p s) := by
  unfold Machine.catchUp
  split
  · exact hs
  · exact h.catchUpRounds _ _ _ hs

theorem arrivalAt (i n p) (s : State) (hs : P s) : P (arrivalAt i n p s) := by
  have h1 := h.catchUp p _ (h.blockEvent p (.take n) s hs)
  refine ite_keeps ?_ hs
  split
  · exact h1
  · exact ite_keeps h1 hs

theorem entryArrived (i n) (s : State) (hs : P s) : P (entryArrived i n s) :=
  forEach_keeps _ (fun p t ht => h.arrivalAt i n p t ht) s hs

end BlockKeeps

/-! ### Chapter 6: demands -/

/-- Kept by the primitive changes of a demand. -/
structure DemandKeeps (P : State → Prop) : Prop where
  gallery : ∀ (s : State) g f, P s → P (s.modGallery g f)
  notice : ∀ k a b d s, P s → P (queueNotice k a b d s)
  frame : ∀ p f s, P s → P (handFrame p f s)

namespace DemandKeeps

variable (h : DemandKeeps P)
include h

theorem carrier (g c f) (s : State) (hs : P s) : P (s.modCarrier g c f) := h.gallery _ _ _ hs

theorem sendMap (g) (s : State) (hs : P s) : P (sendMap g s) := by
  unfold Machine.sendMap
  exact h.gallery _ _ _ (h.frame _ _ _ hs)

theorem carrierEvent (g) {f : State → State} (hf : ∀ s, P s → P (f s)) (s : State) (hs : P s) :
    P (carrierEvent g f s) := ite_keeps (hf _ hs) (h.sendMap _ _ (hf _ hs))

theorem goLive (g c p) (s : State) (hs : P s) : P (goLive g c p s) :=
  h.notice _ _ _ _ _ (h.carrier _ _ _ _ hs)

theorem startSettle (g c p) (s : State) (hs : P s) : P (startSettle g c p s) :=
  ite_keeps (h.goLive _ _ _ _ hs) (h.carrier _ _ _ _ hs)

theorem putWaiting (g p) (s : State) (hs : P s) : P (putWaiting g p s) :=
  h.notice _ _ _ _ _ (h.gallery _ _ _ hs)

theorem preemptOrWait (g p) (s : State) (hs : P s) : P (preemptOrWait g p s) := by
  unfold Machine.preemptOrWait
  split
  · exact h.putWaiting _ _ _ hs
  · exact ite_keeps (h.putWaiting _ _ _ (h.startSettle _ _ _ _ hs)) (h.putWaiting _ _ _ hs)

theorem allocate (g p) (s : State) (hs : P s) : P (allocate g p s) := by
  unfold Machine.allocate
  split
  · exact h.goLive _ _ _ _ hs
  · split
    · exact h.startSettle _ _ _ _ hs
    · split
      · exact h.startSettle _ _ _ _ hs
      · exact h.preemptOrWait _ _ _ hs

theorem demandArrival (p g) (s : State) (hs : P s) : P (demandArrival p g s) :=
  ite_keeps hs (h.carrierEvent _ (h.allocate g p) _ hs)

theorem releaseCarrier (g c p) (s : State) (hs : P s) : P (releaseCarrier g c p s) := by
  unfold Machine.releaseCarrier
  split
  · exact h.startSettle _ _ _ _ (h.notice _ _ _ _ _ (h.gallery _ _ _ hs))
  · exact ite_keeps (h.carrier _ _ _ _ hs) (h.carrier _ _ _ _ hs)

theorem demandEnd (p g) (s : State) (hs : P s) : P (demandEnd p g s) := by
  refine ite_keeps (h.gallery _ _ _ hs) ?_
  split
  · exact hs
  · exact h.carrierEvent _ (h.releaseCarrier g _ p) _ hs

end DemandKeeps

/-! ### Chapter 5: hearing -/

/-- Kept by the primitive changes of the hearing table, and by the joins and leaves that it brings about. -/
structure HearingKeeps (P : State → Prop) : Prop where
  hearing : ∀ (s : State) l, P s → P { s with hearing := l }
  frozen : ∀ (s : State) v, P s → P { s with guideFrozen := v }
  join : ∀ (s : State) t g, P s → P (joinGallery t g s)
  leave : ∀ (s : State) t g, P s → P (leaveGallery t g .left s)

namespace HearingKeeps

variable (h : HearingKeeps P)
include h

theorem offerOne (t) (s : State) (hs : P s) : P (offerOne t s) := by
  refine ite_keeps ?_ hs
  split
  · exact hs
  · exact h.join _ _ _ hs

theorem offerPlace (t) (s : State) (hs : P s) : P (offerPlace t s) :=
  h.offerOne _ _ (h.offerOne _ _ (h.offerOne _ _ hs))

theorem joinOrWait (i g) (s : State) (hs : P s) : P (joinOrWait i g s) := by
  unfold Machine.joinOrWait
  split
  · exact hs
  · exact ite_keeps (h.join _ _ _ hs) hs

theorem leaveIfMember (i g) (s : State) (hs : P s) : P (leaveIfMember i g s) := by
  unfold Machine.leaveIfMember
  split
  · exact hs
  · exact ite_keeps (h.offerPlace _ _ (h.leave _ _ _ hs)) hs

theorem becomeOut (i g) (s : State) (hs : P s) : P (becomeOut i g s) :=
  h.leaveIfMember _ _ _ (h.hearing _ _ hs)

theorem evaluate (i g) (s : State) (hs : P s) : P (evaluate i g s) := by
  unfold Machine.evaluate
  split
  · exact hs
  · refine ite_keeps hs ?_
    split
    · exact ite_keeps (h.joinOrWait _ _ _ (h.hearing _ _ hs)) hs
    · exact ite_keeps (ite_keeps (h.becomeOut _ _ _ hs) (h.hearing _ _ hs)) hs
    · exact ite_keeps (h.joinOrWait _ _ _ (h.hearing _ _ hs)) hs

theorem thawRecord (i g) (s : State) (hs : P s) : P (thawRecord i g s) :=
  ite_keeps (h.becomeOut _ _ _ (h.hearing _ _ hs)) (h.hearing _ _ hs)

theorem thawGuide (i) (s : State) (hs : P s) : P (thawGuide i s) := by
  have h1 := forEach_keeps (portsHearing s i) (fun g t ht => h.thawRecord i g t ht) s hs
  have h2 := forEach_keeps (portsHearing (forEach (portsHearing s i) (Machine.thawRecord i) s) i)
    (fun g t ht => h.evaluate i g t ht) _ h1
  unfold Machine.thawGuide
  dsimp only
  split
  · exact h.frozen _ _ h2
  · exact h.offerPlace _ _ (h.frozen _ _ h2)

end HearingKeeps

end Sys2Proof.Laws
end

section
/-! A source that is LIVE again and an entry that arrives: VOICE_FRAME accepted (R5, R7, R10). -/

namespace Sys2Proof.Machine

open Laws

variable {P : State → Prop}

/-! ### Projections that blocks and demands leave alone -/

/-- What decides the overlay of a program is kept by blocks. -/
theorem blockKeeps_overlayView (q : ProgNo) (x) : BlockKeeps (fun t => overlayView q t = x) where
  trim _ _ _ hs := hs
  program s p f hf hs := by
    refine Eq.trans ?_ hs
    by_cases h : p = q
    · subst h
      have hview : (f s.programs[p]).state = s.programs[p].state ∧
          (f s.programs[p]).overlayAnn = s.programs[p].overlayAnn := by
        rw [hf]; exact ⟨rfl, rfl⟩
      simp only [overlayView, modProgram_programs_self, hview.1, hview.2]
      rfl
    · simp only [overlayView, modProgram_programs_ne _ h]
      rfl
  notice k a b d s hs := by rw [queueNotice_eq]; exact hs
  frame p f s hs := by rw [handFrame_eq]; exact hs

/-- An entry that arrives leaves the overlays. -/
theorem overlaidAt_entryArrived {q : ProgNo} (i : SourceSlot) (n : Seq) {s : State} (hs : OverlaidAt q s) :
    OverlaidAt q (entryArrived i n s) :=
  overlaidAt_congr ((blockKeeps_overlayView q _).entryArrived i n s rfl) hs

/-- A projection that the mix engine does not enter is the same once an entry arrived. -/
theorem entryArrived_ignores {α : Type} {π : State → α} (h : ∀ t a b c d e f, π { t with
      sources := a, programs := b, ports := c, notices := d, noticeOverflow := e, log := f } = π t)
    (i : SourceSlot) (n : Seq) (s : State) : π (entryArrived i n s) = π s :=
  (mixKeeps_of_ignores h (π s)).entryArrived i n s rfl

/-- A projection that galleries, ports, notices and delivery log do not enter is kept by demands. -/
theorem demandKeeps_of_ignores {α : Type} {π : State → α} (h : ∀ t a b c d e, π { t with
      galleries := a, ports := b, notices := c, noticeOverflow := d, log := e } = π t) (x : α) :
    DemandKeeps (fun t => π t = x) where
  gallery s _ _ hs := (h s _ s.ports s.notices s.noticeOverflow s.log).trans hs
  notice k a b d s hs := by rw [queueNotice_eq]; exact (h s s.galleries s.ports _ _ s.log).trans hs
  frame p f s hs := by rw [handFrame_eq]; exact (h s s.galleries _ _ _ _).trans hs

/-! ### Joins and leaves (R82) -/

theorem mem_progsOf (q : ProgNo) : q ∈ progsOf (tourOf q) := by
  refine List.mem_map.mpr ⟨langOf q, mem_fins _, Fin.ext ?_⟩
  simp only [progOf, tourOf, langOf]
  omega

/-- The set of a tour changed, demands for some programs handed on, and the overlays of the tour chosen anew. -/
def setChanged (n : TourNo) (f : Tour → Tour) (ps : State → List ProgNo) (demand : ProgNo → State → State)
    (s : State) : State :=
  chooseTourOverlays n (forEach (ps (s.modTour n f)) demand (s.modTour n f))

theorem joinGallery_eq (n : TourNo) (g : PortNo) (s : State) : joinGallery n g s =
    guideMoved n g .joined (setChanged n (fun r => { r with gallerySet := r.gallerySet ++ [g] })
      (fun t => wantedPrograms t n) (fun p => demandArrival p g) s) := rfl

theorem leaveGallery_eq (n : TourNo) (g : PortNo) (s : State) : leaveGallery n g .left s =
    guideMoved n g .left (setChanged n
      (fun r => { r with gallerySet := r.gallerySet.filter fun x => !(x == g) })
      (fun t => wantedPrograms t n) (fun p => demandEnd p g) s) := rfl

/-- Announcements are not concerned by a change of a tour's set. -/
theorem setChanged_announcements {n : TourNo} {f : Tour → Tour} {ps : State → List ProgNo}
    {demand : ProgNo → State → State} {s : State}
    (hd : ∀ p t, (demand p t).announcements = t.announcements) :
    (setChanged n f ps demand s).announcements = s.announcements := by
  refine (mixKeeps_of_ignores (π := State.announcements) (fun _ _ _ _ _ _ _ => rfl) _).chooseTourOverlays n _ ?_
  exact forEach_keeps (P := fun t => t.announcements = s.announcements) _
    (fun p t ht => (hd p t).trans ht) _ rfl

/-- After a change of a tour's set every ACTIVE program that had the overlay of R69 has it: those of the tour are
chosen for anew, and no other is concerned. -/
theorem overlaidAt_setChanged {q : ProgNo} {n : TourNo} {f : Tour → Tour} {ps : State → List ProgNo}
    {demand : ProgNo → State → State} {s : State}
    (hd : ∀ p t, overlayView q (demand p t) = overlayView q t) (hs : OverlaidAt q s) :
    OverlaidAt q (setChanged n f ps demand s) := by
  refine overlaidAt_forEach_chooseOverlay _ _ ?_
  by_cases h : n = tourOf q
  · exact .inl (h ▸ mem_progsOf q)
  · refine .inr (overlaidAt_congr (forEach_keeps (P := fun t => overlayView q t = overlayView q s) _
      (fun p t ht => (hd p t).trans ht) _ ?_) hs)
    simp only [overlayView, modTour_tours_ne _ h]
    rfl

/-- A demand leaves announcements and overlays. -/
theorem demandArrival_announcements (p : ProgNo) (g : PortNo) (s : State) :
    (demandArrival p g s).announcements = s.announcements :=
  (demandKeeps_of_ignores (π := State.announcements) (fun _ _ _ _ _ _ => rfl) _).demandArrival p g s rfl

theorem demandEnd_announcements (p : ProgNo) (g : PortNo) (s : State) :
    (demandEnd p g s).announcements = s.announcements :=
  (demandKeeps_of_ignores (π := State.announcements) (fun _ _ _ _ _ _ => rfl) _).demandEnd p g s rfl

theorem demandArrival_overlayView (q p : ProgNo) (g : PortNo) (s : State) :
    overlayView q (demandArrival p g s) = overlayView q s :=
  (demandKeeps_of_ignores (π := overlayView q) (fun _ _ _ _ _ _ => rfl) _).demandArrival p g s rfl

theorem demandEnd_overlayView (q p : ProgNo) (g : PortNo) (s : State) :
    overlayView q (demandEnd p g s) = overlayView q s :=
  (demandKeeps_of_ignores (π := overlayView q) (fun _ _ _ _ _ _ => rfl) _).demandEnd p g s rfl

/-- What the hearing table brings about concerns no announcement. -/
theorem hearingKeeps_announcements (x) : HearingKeeps (fun t => t.announcements = x) where
  hearing _ _ hs := hs
  frozen _ _ hs := hs
  join s n g hs := by
    rw [joinGallery_eq, guideMoved, queueNotice_announcements,
      setChanged_announcements fun p t => demandArrival_announcements p g t]
    exact hs
  leave s n g hs := by
    rw [leaveGallery_eq, guideMoved, queueNotice_announcements,
      setChanged_announcements fun p t => demandEnd_announcements p g t]
    exact hs

theorem overlayView_guideMoved (q : ProgNo) (n : TourNo) (g : PortNo) (c : MoveCode) (s : State) :
    overlayView q (guideMoved n g c s) = overlayView q s := by
  rw [guideMoved, queueNotice_eq]; rfl

/-- What the hearing table brings about leaves every ACTIVE program with the overlay of R69. -/
theorem hearingKeeps_overlaidAt (q : ProgNo) : HearingKeeps (OverlaidAt q) where
  hearing _ _ hs := hs
  frozen _ _ hs := hs
  join s n g hs := by
    rw [joinGallery_eq]
    exact overlaidAt_congr (overlayView_guideMoved q n g _ _)
      (overlaidAt_setChanged (fun p t => demandArrival_overlayView q p g t) hs)
  leave s n g hs := by
    rw [leaveGallery_eq]
    exact overlaidAt_congr (overlayView_guideMoved q n g _ _)
      (overlaidAt_setChanged (fun p t => demandEnd_overlayView q p g t) hs)

/-! ### A source that became LIVE, handed on (R10) -/

/-- The change handed on to programs and announcements, before a guide's records thaw. -/
def liveFollowed (i : SourceSlot) (fromLost : Bool) (s : State) : State :=
  announcerLive i (programsFollow i (if fromLost then some false else none) s)

theorem handOnLive_eq (i : SourceSlot) (fromLost : Bool) (s : State) : handOnLive i fromLost s =
    if fromLost && (liveFollowed i fromLost s).sources[i].role == .guide then
      thawGuide i (liveFollowed i fromLost s) else liveFollowed i fromLost s := rfl

theorem grown_liveFollowed (i : SourceSlot) (b : Bool) (s : State) : Grown s (liveFollowed i b s) :=
  (followKeeps_grown s).announcerLive i _ ((followKeeps_grown s).programsFollow i _ s (Grown.refl s))

/-- The records of a guide that was LOST thaw (R86). -/
theorem handOnLive_of_thaw {i : SourceSlot} {s : State} (h : s.sources[i].role = .guide) :
    handOnLive i true s = thawGuide i (liveFollowed i true s) := by
  have hrole := (grown_liveFollowed i true s).1.role_eq i
  rw [handOnLive_eq, if_pos]
  simp only [Bool.true_and, beq_iff_eq]
  exact hrole.trans h

theorem handOnLive_of_not {i : SourceSlot} {b : Bool} {s : State}
    (h : b = false ∨ s.sources[i].role ≠ .guide) : handOnLive i b s = liveFollowed i b s := by
  have hrole := (grown_liveFollowed i b s).1.role_eq i
  rw [handOnLive_eq, if_neg]
  simp only [Bool.and_eq_true, beq_iff_eq]
  rintro ⟨hb, hg⟩
  exact h.elim (fun hf => Bool.false_ne_true (hf.symm.trans hb)) fun hn => hn (hrole.symm.trans hg)

/-- A projection that neither the mix engine nor tours nor announcements enter is the same once all followed. -/
theorem liveFollowed_ignores {α : Type} {π : State → α} (h : ∀ t a b c d e f, π { t with
      sources := a, programs := b, ports := c, notices := d, noticeOverflow := e, log := f } = π t)
    (h' : ∀ t a b, π { t with tours := a, announcements := b } = π t) (i : SourceSlot) (b : Bool) (s : State) :
    π (liveFollowed i b s) = π s :=
  announcerLive_keeps (mixKeeps_of_ignores h (π s))
    (fun t n x ht => (h' t t.tours (t.announcements.set n x)).trans ht) i _
    (programsFollow_ignores h (fun t a => h' t a t.announcements) i _ s)

/-- The guide frozen flags, once a source that was LOST is LIVE (R24). -/
theorem liveFollowed_tours (i : SourceSlot) (s : State) (n : TourNo) :
    (liveFollowed i true s).tours[n] = s.tours[n].flagged i false := by
  have hmix := mixKeeps_of_ignores (π := State.tours) (fun _ _ _ _ _ _ _ => rfl) (setGuideFrozen i false s).tours
  have h : (liveFollowed i true s).tours = (setGuideFrozen i false s).tours :=
    announcerLive_keeps hmix (fun _ _ _ ht => ht) i _ (programsFollow_keeps hmix i (some false) s rfl)
  rw [h, setGuideFrozen_tours]

theorem liveFollowed_announcements (i : SourceSlot) (b : Bool) (s : State) (n : AnnNo) :
    (liveFollowed i b s).announcements[n] = startedWith i s.clock s.announcements[n] := by
  rw [liveFollowed, announcerLive_announcements,
    programsFollow_ignores (π := State.announcements) (fun _ _ _ _ _ _ _ => rfl) (fun _ _ => rfl),
    programsFollow_ignores (π := State.clock) (fun _ _ _ _ _ _ _ => rfl) (fun _ _ => rfl)]

theorem overlaidAt_liveFollowed {i : SourceSlot} {b : Bool} {s : State} {n : AnnNo}
    (h : announces i .waiting s.announcements[n] = true) (q : ProgNo) : OverlaidAt q (liveFollowed i b s) := by
  refine overlaidAt_announcerLive (n := n) ?_ q
  rwa [programsFollow_ignores (π := State.announcements) (fun _ _ _ _ _ _ _ => rfl) (fun _ _ => rfl)]

/-- What the hearing table brings about and the change itself leaves is left by all that is handed on. -/
theorem handOnLive_keeps {i : SourceSlot} {b : Bool} {s : State} (h : HearingKeeps P)
    (hs : P (liveFollowed i b s)) : P (handOnLive i b s) := by
  rw [handOnLive_eq]
  exact ite_keeps (h.thawGuide i _ hs) hs

theorem handOnLive_announcements (i : SourceSlot) (b : Bool) (s : State) (n : AnnNo) :
    (handOnLive i b s).announcements[n] = startedWith i s.clock s.announcements[n] := by
  have h : (handOnLive i b s).announcements = (liveFollowed i b s).announcements :=
    handOnLive_keeps (P := fun t => t.announcements = (liveFollowed i b s).announcements)
      (hearingKeeps_announcements _) rfl
  rw [h, liveFollowed_announcements]

theorem overlaidAt_handOnLive {i : SourceSlot} {b : Bool} {s : State} {n : AnnNo}
    (h : announces i .waiting s.announcements[n] = true) (q : ProgNo) : OverlaidAt q (handOnLive i b s) :=
  handOnLive_keeps (P := OverlaidAt q) (hearingKeeps_overlaidAt q) (overlaidAt_liveFollowed h q)

end Sys2Proof.Machine
end

section
/-! An accepted voice frame taken in (R5). -/

namespace Sys2Proof.Machine

open Laws

variable {P : State → Prop} {s : State} {i : SourceSlot} {seq : Seq} {b : Block}

/-! ### The steps of R5 -/

/-- The hub with the frame in its slot, before anything is handed on. -/
def takenIn (i : SourceSlot) (seq : Seq) (b : Block) (s : State) : State :=
  { s with sources := s.sources.set i { s.sources[i] with
      state := .live, newest := some seq
      lostDeadline := some (s.clock + BitVec.ofNat 32 s.limits.sourceLostMs)
      store := placeEntry ⟨seq, b, s.clock⟩ s.sources[i].store } }

/-- SOURCE_BACK of a source that was LOST. -/
def backNoticed (i : SourceSlot) (seq : Seq) (b : Block) (s : State) : State :=
  queueNotice .sourceBack (some (BitVec.ofNat 16 i.val)) s.sources[i].id (BitVec.ofNat 16 seq.toNat)
    (takenIn i seq b s)

/-- The change of state handed on, if it is one, before the mix engine is told of the entry. -/
def becameLive (i : SourceSlot) (seq : Seq) (b : Block) (s : State) : State :=
  match s.sources[i].state with
  | .live => takenIn i seq b s
  | .lost => handOnLive i true (backNoticed i seq b s)
  | .unused | .idle => handOnLive i false (takenIn i seq b s)

/-- Acceptance step by step: the slot, SOURCE_BACK, the hand-on, the mix engine (R5). -/
theorem acceptFrame_eq_steps : acceptFrame i seq b s = entryArrived i seq
    (if s.sources[i].state = .live then
        if s.sources[i].state = .lost then sourceNotice .sourceBack i (some seq) (takenIn i seq b s)
        else takenIn i seq b s
      else handOnLive i (s.sources[i].state == .lost)
        (if s.sources[i].state = .lost then sourceNotice .sourceBack i (some seq) (takenIn i seq b s)
        else takenIn i seq b s)) := rfl

theorem acceptFrame_eq : acceptFrame i seq b s = entryArrived i seq (becameLive i seq b s) := by
  have hid : (takenIn i seq b s).sources[i].id = s.sources[i].id := by simp [takenIn]
  have hback : sourceNotice .sourceBack i (some seq) (takenIn i seq b s) = backNoticed i seq b s := by
    rw [sourceNotice, hid]; rfl
  rw [acceptFrame_eq_steps, hback]
  refine congrArg (entryArrived i seq) ?_
  unfold becameLive
  cases s.sources[i].state with
  | live => rw [if_pos rfl, if_neg (by decide)]
  | lost => rw [if_neg (by decide), if_pos rfl, beq_self_eq_true]
  | unused => rw [if_neg (by decide), if_neg (by decide)]; exact congrArg (handOnLive i · _) rfl
  | idle => rw [if_neg (by decide), if_neg (by decide)]; exact congrArg (handOnLive i · _) rfl

theorem becameLive_of_live (h : s.sources[i].state = .live) : becameLive i seq b s = takenIn i seq b s := by
  simp only [becameLive, h]

theorem becameLive_of_lost (h : s.sources[i].state = .lost) :
    becameLive i seq b s = handOnLive i true (backNoticed i seq b s) := by simp only [becameLive, h]

theorem becameLive_of_idle (hlive : s.sources[i].state ≠ .live) (hlost : s.sources[i].state ≠ .lost) :
    becameLive i seq b s = handOnLive i false (takenIn i seq b s) := by
  unfold becameLive
  cases h : s.sources[i].state with
  | live => exact absurd h hlive
  | lost => exact absurd h hlost
  | unused => rfl
  | idle => rfl

/-- A change of state is handed on from the slot as it was taken in, but for a SOURCE_BACK. -/
theorem becameLive_of_not_live (h : s.sources[i].state ≠ .live) : ∃ c w, becameLive i seq b s = handOnLive i c w ∧
    (w = takenIn i seq b s ∨ w = backNoticed i seq b s) := by
  by_cases hl : s.sources[i].state = .lost
  · exact ⟨_, _, becameLive_of_lost hl, .inr rfl⟩
  · exact ⟨_, _, becameLive_of_idle h hl, .inl rfl⟩

/-! ### What acceptance leaves alone -/

/-- What is kept by all that follows a source is kept by acceptance, once the frame is in its slot. -/
theorem acceptFrame_keeps (h : FollowKeeps P) (hs : P (takenIn i seq b s)) : P (acceptFrame i seq b s) := by
  rw [acceptFrame_eq_steps]
  have hn := ite_keeps (c := s.sources[i].state = .lost)
    (h.notice .sourceBack (subjectOf i.val) (takenIn i seq b s).sources[i].id
      (BitVec.ofNat 16 (((some seq).map (·.toNat)).getD 0xFFFF)) _ hs) hs
  exact h.entryArrived _ _ _ (ite_keeps hn (h.handOnLive _ _ _ hn))

theorem grown_acceptFrame : Grown (takenIn i seq b s) (acceptFrame i seq b s) :=
  acceptFrame_keeps (followKeeps_grown _) (Grown.refl _)

theorem asideOf_acceptFrame : asideOf (acceptFrame i seq b s) = asideOf s :=
  acceptFrame_keeps (P := fun t => asideOf t = asideOf s) (followKeeps_of_ignores (π := asideOf)
    (fun _ _ _ _ _ _ _ => rfl) (fun _ _ _ _ _ _ => rfl) (asideOf s)) rfl

theorem takenIn_sources_self : (takenIn i seq b s).sources[i] = { s.sources[i] with
    state := .live, newest := some seq
    lostDeadline := some (s.clock + BitVec.ofNat 32 s.limits.sourceLostMs)
    store := placeEntry ⟨seq, b, s.clock⟩ s.sources[i].store } :=
  modSource_sources_self s i fun r => { r with
    state := .live, newest := some seq
    lostDeadline := some (s.clock + BitVec.ofNat 32 s.limits.sourceLostMs)
    store := placeEntry ⟨seq, b, s.clock⟩ r.store }

theorem takenIn_sources_ne {j : SourceSlot} (hj : j ≠ i) : (takenIn i seq b s).sources[j] = s.sources[j] :=
  modSource_sources_ne s hj.symm fun r => { r with
    state := .live, newest := some seq
    lostDeadline := some (s.clock + BitVec.ofNat 32 s.limits.sourceLostMs)
    store := placeEntry ⟨seq, b, s.clock⟩ r.store }

/-- The slots once the frame was accepted: its own LIVE, and stores short at most of oldest entries. -/
theorem acceptFrame_sources :
    (acceptFrame i seq b s).sources[i] = { s.sources[i] with
      state := .live, newest := some seq
      lostDeadline := some (s.clock + BitVec.ofNat 32 s.limits.sourceLostMs)
      store := (acceptFrame i seq b s).sources[i].store } ∧
    (acceptFrame i seq b s).sources[i].store <:+ placeEntry ⟨seq, b, s.clock⟩ s.sources[i].store ∧
    ∀ j : SourceSlot, j ≠ i →
      (acceptFrame i seq b s).sources[j] =
        { s.sources[j] with store := (acceptFrame i seq b s).sources[j].store } ∧
      (acceptFrame i seq b s).sources[j].store <:+ s.sources[j].store := by
  have htrim := (grown_acceptFrame (i := i) (seq := seq) (b := b) (s := s)).1
  obtain ⟨heq, hsuf⟩ := htrim i
  rw [takenIn_sources_self] at heq hsuf
  refine ⟨heq, hsuf, fun j hj => ?_⟩
  have h := htrim j
  rwa [takenIn_sources_ne hj] at h

/-- A projection that neither the mix engine nor tours nor announcements enter is that of the hub before, unless the
records of a guide thaw. -/
theorem acceptFrame_ignores {α : Type} {π : State → α} (h : ∀ t a b c d e f, π { t with
      sources := a, programs := b, ports := c, notices := d, noticeOverflow := e, log := f } = π t)
    (h' : ∀ t a b, π { t with tours := a, announcements := b } = π t)
    (hn : s.sources[i].state ≠ .lost ∨ s.sources[i].role ≠ .guide) : π (acceptFrame i seq b s) = π s := by
  have htaken : π (takenIn i seq b s) = π s :=
    h s _ s.programs s.ports s.notices s.noticeOverflow s.log
  have hback : π (backNoticed i seq b s) = π s := by
    rw [backNoticed, queueNotice_eq]
    exact (h _ (takenIn i seq b s).sources (takenIn i seq b s).programs (takenIn i seq b s).ports _ _
      (takenIn i seq b s).log).trans htaken
  rw [acceptFrame_eq, entryArrived_ignores h]
  by_cases hlive : s.sources[i].state = .live
  · rw [becameLive_of_live hlive, htaken]
  · by_cases hlost : s.sources[i].state = .lost
    · have hrole : (backNoticed i seq b s).sources[i].role = s.sources[i].role := by
        rw [backNoticed, queueNotice_sources, takenIn_sources_self]
      rw [becameLive_of_lost hlost, handOnLive_of_not (.inr (hrole ▸ hn.resolve_left (not_not_intro hlost))),
        liveFollowed_ignores h h', hback]
    · rw [becameLive_of_idle hlive hlost, handOnLive_of_not (.inl rfl), liveFollowed_ignores h h', htaken]

/-! ### Announcements and overlays (R66) -/

/-- The records of an announcer that became LIVE are ON; no other record is concerned. -/
theorem acceptFrame_announcements (n : AnnNo) : (acceptFrame i seq b s).announcements[n] =
    if s.sources[i].state = .live then s.announcements[n] else startedWith i s.clock s.announcements[n] := by
  rw [acceptFrame_eq, entryArrived_ignores (π := State.announcements) (fun _ _ _ _ _ _ _ => rfl)]
  by_cases hlive : s.sources[i].state = .live
  · rw [if_pos hlive, becameLive_of_live hlive]; rfl
  · obtain ⟨c, w, hv, hw⟩ := becameLive_of_not_live (seq := seq) (b := b) hlive
    have hann : w.announcements = s.announcements ∧ w.clock = s.clock := by
      rcases hw with rfl | rfl
      · exact ⟨rfl, rfl⟩
      · rw [backNoticed, queueNotice_announcements, queueNotice_clock]; exact ⟨rfl, rfl⟩
    rw [if_neg hlive, hv, handOnLive_announcements, hann.1, hann.2]

/-- Whether a source was LIVE before, said of each record. -/
theorem startedWith_of_state (c : Clock) (x : Option Announcement) :
    (if s.sources[i].state = .live then x else startedWith i c x) =
      x.map fun a => if s.sources[i].state ≠ .live ∧ a.slot = i ∧ a.state = .waiting then { a with
        state := .on, startStamp := some c, pendingDeadline := none
        endDeadline := some (c + BitVec.ofNat 32 (a.duration * 1000)) } else a := by
  by_cases h : s.sources[i].state = .live
  · simp only [h, if_true, ne_eq, not_true, false_and, if_false, Option.map_id_fun']
    rfl
  · simp only [h, if_false, ne_eq, not_false_eq_true, true_and, startedWith]

/-- Once a record became ON so, every ACTIVE program has the overlay of R69. -/
theorem overlaidAt_acceptFrame {n : AnnNo} (hlive : s.sources[i].state ≠ .live)
    (ha : announces i .waiting s.announcements[n] = true) (q : ProgNo) :
    OverlaidAt q (acceptFrame i seq b s) := by
  rw [acceptFrame_eq]
  obtain ⟨c, w, hv, hw⟩ := becameLive_of_not_live (seq := seq) (b := b) hlive
  have hann : w.announcements = s.announcements := by
    rcases hw with rfl | rfl
    · rfl
    · rw [backNoticed, queueNotice_announcements]; rfl
  rw [hv]
  exact overlaidAt_entryArrived i seq (overlaidAt_handOnLive (by rwa [hann]) q)

/-! ### SOURCE_BACK and the thaw of a guide (R5, R86) -/

/-- SOURCE_BACK comes first among the notices of the acceptance. -/
theorem acceptFrame_sourceBack (hlost : s.sources[i].state = .lost) (he : s.limits.enabled .sourceBack = true)
    (hroom : s.notices.length < 16) : s.notices ++ [⟨.sourceBack, s.clock, some (BitVec.ofNat 16 i.val),
      s.sources[i].id, BitVec.ofNat 16 seq.toNat⟩] <+: (acceptFrame i seq b s).notices := by
  have hgrown : Grown (backNoticed i seq b s) (acceptFrame i seq b s) := by
    rw [acceptFrame_eq, becameLive_of_lost hlost]
    exact (followKeeps_grown _).entryArrived _ _ _ ((followKeeps_grown _).handOnLive _ _ _ (Grown.refl _))
  have hback : (backNoticed i seq b s).notices = s.notices ++ [⟨.sourceBack, s.clock,
      some (BitVec.ofNat 16 i.val), s.sources[i].id, BitVec.ofNat 16 seq.toNat⟩] := by
    rw [backNoticed, queueNotice_room (takenIn i seq b s) he hroom]; rfl
  exact hback ▸ hgrown.2.2

/-- The records of a guide that was LOST thaw in a hub with the former hearing table, the flags of the guide's tours
cleared before (R24, R86). -/
theorem acceptFrame_thaws (hlost : s.sources[i].state = .lost) (hg : s.sources[i].role = .guide) : ∃ w : State,
    w.hearing = s.hearing ∧ w.limits = s.limits ∧ w.clock = s.clock ∧ w.guideFrozen = s.guideFrozen ∧
      (∀ n : TourNo, w.tours[n] = s.tours[n].flagged i false) ∧
      (acceptFrame i seq b s).hearing = (thawGuide i w).hearing ∧
      (acceptFrame i seq b s).tours = (thawGuide i w).tours ∧
      (acceptFrame i seq b s).guideFrozen = (thawGuide i w).guideFrozen := by
  have hrole : (backNoticed i seq b s).sources[i].role = .guide := by
    rw [backNoticed, queueNotice_sources, takenIn_sources_self]; exact hg
  have haccept : acceptFrame i seq b s =
      entryArrived i seq (thawGuide i (liveFollowed i true (backNoticed i seq b s))) := by
    rw [acceptFrame_eq, becameLive_of_lost hlost, handOnLive_of_thaw hrole]
  refine ⟨liveFollowed i true (backNoticed i seq b s), ?_, ?_, ?_, ?_, fun n => ?_, ?_, ?_, ?_⟩
  · rw [liveFollowed_ignores (π := State.hearing) (fun _ _ _ _ _ _ _ => rfl) (fun _ _ _ => rfl), backNoticed,
      queueNotice_hearing]; rfl
  · rw [liveFollowed_ignores (π := State.limits) (fun _ _ _ _ _ _ _ => rfl) (fun _ _ _ => rfl), backNoticed,
      queueNotice_limits]; rfl
  · rw [liveFollowed_ignores (π := State.clock) (fun _ _ _ _ _ _ _ => rfl) (fun _ _ _ => rfl), backNoticed,
      queueNotice_clock]; rfl
  · rw [liveFollowed_ignores (π := State.guideFrozen) (fun _ _ _ _ _ _ _ => rfl) (fun _ _ _ => rfl), backNoticed,
      queueNotice_guideFrozen]; rfl
  · rw [liveFollowed_tours, backNoticed, queueNotice_tours]; rfl
  · rw [haccept, entryArrived_ignores (π := State.hearing) (fun _ _ _ _ _ _ _ => rfl)]
  · rw [haccept, entryArrived_ignores (π := State.tours) (fun _ _ _ _ _ _ _ => rfl)]
  · rw [haccept, entryArrived_ignores (π := State.guideFrozen) (fun _ _ _ _ _ _ _ => rfl)]

/-- Settles O23: the frame is taken apart, and `acceptFrame` takes its steps from the slot on. -/
theorem acceptedVoiceFrameIsTakenIn : Obligations.AcceptedVoiceFrameIsTakenIn := by
  unfold Obligations.AcceptedVoiceFrameIsTakenIn
  intro s p i id seq level format f samples hp hl hv hid hc hf hfmt
  have hexec := (exec_voiceFrame_known (seq := seq) hp.symm hl hf hv hfmt hid).trans
    (congrArg _ (knownFrame_accepted (p := p) (level := level) (samples := convertSamples f samples) hc))
  generalize convertSamples f samples = b at hexec ⊢
  have hgrown := grown_acceptFrame (i := i) (seq := seq) (b := b) (s := s)
  obtain ⟨hself, hstore, hothers⟩ := acceptFrame_sources (i := i) (seq := seq) (b := b) (s := s)
  obtain ⟨hset, hrec, hrack, hpool, hout, hreq, hlast⟩ :=
    settingsKept_of_aside (asideOf_acceptFrame (i := i) (seq := seq) (b := b) (s := s)) hgrown.2.1
  refine ⟨acceptFrame i seq b s, ?_, hself, hstore, hothers, hgrown.2.2, hgrown.2.1, fun hlost he hroom => ?_,
    fun hn => ?_, fun hlive => ?_, fun hlive => ⟨fun hlost => ?_, fun hlost => ?_⟩, fun n => ?_,
    fun n a hlive ha hi hw q => ?_, acceptFrame_thaws, hset, hrec, hrack, hpool, hout, hreq, hlast⟩
  · rw [hexec]
  · rw [← hid.1]
    exact acceptFrame_sourceBack hlost he hroom
  · exact Prod.mk.inj (acceptFrame_ignores (π := fun t => (t.hearing, t.guideFrozen))
      (fun _ _ _ _ _ _ _ => rfl) (fun _ _ _ => rfl) hn)
  · rw [acceptFrame_eq, becameLive_of_live hlive, takenIn, ← hlive]
  · rw [acceptFrame_eq, becameLive_of_idle hlive hlost]; rfl
  · rw [acceptFrame_eq, becameLive_of_lost hlost, backNoticed, hid.1]; rfl
  · rw [acceptFrame_announcements, startedWith_of_state]
  · exact overlaidAt_acceptFrame hlive (announces_iff.mpr ⟨a, ha, hi, hw⟩) q

end Sys2Proof.Machine
end

section
/-! Wanted and ACTIVE as R26 derives them: what decides them, and what the derivation of one program changes. -/

namespace Sys2Proof.Machine

open Laws

variable {P : State → Prop} {s t u : State} {p q : ProgNo}

/-! ### What decides wanted and ACTIVE -/

/-- What of a program the tour desk and the fleet set, and the derivation of R26 never touches. -/
def Program.setup (r : Program) : (VoiceMode × Option SourceSlot × Option ProgNo × Bool) × Nat × Nat :=
  ((r.mode, r.interpreter, r.target, r.carryAlways), r.keyed, r.issued)

/-- Two hubs with the same tours OPEN and the same setups of programs. -/
def SameSetup (s t : State) : Prop :=
  (∀ n : TourNo, t.tours[n].state = s.tours[n].state) ∧
    ∀ q : ProgNo, t.programs[q].setup = s.programs[q].setup

theorem SameSetup.refl (s : State) : SameSetup s s := ⟨fun _ => rfl, fun _ => rfl⟩

theorem SameSetup.trans (h : SameSetup s t) (h' : SameSetup t u) : SameSetup s u :=
  ⟨fun n => (h'.1 n).trans (h.1 n), fun q => (h'.2 q).trans (h.2 q)⟩

theorem setup_eq_iff {r x : Program} : r.setup = x.setup ↔ r.mode = x.mode ∧ r.interpreter = x.interpreter ∧
    r.target = x.target ∧ r.carryAlways = x.carryAlways ∧ r.keyed = x.keyed ∧ r.issued = x.issued := by
  simp only [Program.setup, Prod.mk.injEq, and_assoc]

/-- Mixable and wanted, of one program (R26). -/
theorem isWanted_iff : isWanted s p = true ↔
    (s.tours[tourOf p].state = .opened ∧ s.programs[p].mode ≠ .unset) ∧
      (0 < s.programs[p].keyed + s.programs[p].issued ∨ s.programs[p].carryAlways = true) := by
  simp [isWanted, isMixable, receiverSum]

/-- To be ACTIVE (R26). -/
theorem toBeActive_iff : toBeActive s p = true ↔
    (s.tours[tourOf p].state = .opened ∧ s.programs[p].mode ≠ .unset) ∧
      (isWanted s p = true ∨ ∃ q : ProgNo,
        s.programs[q].mode = .linked ∧ s.programs[q].target = some p ∧ isWanted s q = true) := by
  have hmix : isMixable s p = true ↔ s.tours[tourOf p].state = .opened ∧ s.programs[p].mode ≠ .unset := by
    simp [isMixable]
  simp only [toBeActive, isWantedTarget, Bool.or_eq_true, Bool.and_eq_true, List.any_eq_true, mem_fins, true_and,
    beq_iff_eq, hmix, and_assoc]
  constructor
  · rintro (hw | ⟨hm, hq⟩)
    · exact ⟨(isWanted_iff.mp hw).1.1, (isWanted_iff.mp hw).1.2, .inl hw⟩
    · exact ⟨hm, hq.1, .inr hq.2⟩
  · rintro ⟨ho, hm, hw | hq⟩
    · exact .inl hw
    · exact .inr ⟨ho, hm, hq⟩

theorem SameSetup.isWanted_eq (h : SameSetup s t) (q : ProgNo) : isWanted t q = isWanted s q := by
  obtain ⟨hm, -, -, hc, hk, hi⟩ := setup_eq_iff.mp (h.2 q)
  rw [Bool.eq_iff_iff, isWanted_iff, isWanted_iff, hm, hc, hk, hi, h.1]

theorem SameSetup.toBeActive_eq (h : SameSetup s t) (q : ProgNo) : toBeActive t q = toBeActive s q := by
  have hlink (x : ProgNo) : (t.programs[x].mode == .linked && t.programs[x].target == some q) =
      (s.programs[x].mode == .linked && s.programs[x].target == some q) := by
    obtain ⟨hm, -, ht, -⟩ := setup_eq_iff.mp (h.2 x)
    rw [hm, ht]
  have hmix : isMixable t q = isMixable s q := by
    rw [isMixable, isMixable, h.1, (setup_eq_iff.mp (h.2 q)).1]
  simp only [toBeActive, isWantedTarget, hlink, hmix, h.isWanted_eq]

theorem SameSetup.restState_eq (h : SameSetup s t) (q : ProgNo) :
    restState t.programs[q] = restState s.programs[q] := by
  rw [restState, restState, (setup_eq_iff.mp (h.2 q)).1]

/-- Wanted and state of a program are those of another hub with the same setups. -/
theorem settled_congr (h : SameSetup s t) (hw : t.programs[q].wanted = s.programs[q].wanted)
    (hst : t.programs[q].state = s.programs[q].state) (hs : Settled s q) : Settled t q := by
  obtain ⟨h1, h2, h3⟩ := hs
  exact ⟨by rw [hw, h1, h.isWanted_eq], by rw [hst, h2, h.toBeActive_eq],
    fun hn => by rw [hst, h3 (hst ▸ hn), h.restState_eq]⟩

/-! ### One program changed -/

theorem modProgram_of_fixed {f : Program → Program} (h : f s.programs[p] = s.programs[p]) :
    s.modProgram p f = s := by
  have hset : s.programs.set p s.programs[p] = s.programs := Vector.set_getElem_self _
  simp only [State.modProgram, h, hset]

theorem modProgram_modProgram (s : State) (p : ProgNo) (f g : Program → Program) :
    (s.modProgram p f).modProgram p g = s.modProgram p fun r => g (f r) := by
  simp [State.modProgram]

theorem sameSetup_modProgram {f : Program → Program} (hf : ∀ r, (f r).setup = r.setup) :
    SameSetup s (s.modProgram p f) := by
  refine ⟨fun _ => rfl, fun q => ?_⟩
  by_cases h : p = q
  · subst h; rw [modProgram_programs_self, hf]
  · rw [modProgram_programs_ne _ h]

/-! ### The pace of the linkers (R31) -/

/-- Only pace and block deadline of LINKED programs that target `p` differ. -/
def LinkersPaced (p : ProgNo) (s t : State) : Prop :=
  t = { s with programs := t.programs } ∧ ∀ q : ProgNo,
    t.programs[q] = { s.programs[q] with
      pace := t.programs[q].pace, blockDeadline := t.programs[q].blockDeadline } ∧
    (s.programs[q].mode ≠ .linked ∨ s.programs[q].target ≠ some p → t.programs[q] = s.programs[q])

/-- Deriving the pace changes pace and block deadline (R31, R40). -/
theorem derivePace_eq (p : ProgNo) (s : State) : derivePace p s = s ∨
    derivePace p s = s.modProgram p fun r =>
      { r with pace := derivedPace s p, blockDeadline := paceDeadline s p (derivedPace s p) } := by
  unfold derivePace
  dsimp only
  split
  · exact .inl rfl
  · split
    · exact .inl rfl
    · exact .inr rfl

theorem linkersPaced_derivePace (h : LinkersPaced p s t) (hm : t.programs[q].mode = .linked)
    (ht : t.programs[q].target = some p) : LinkersPaced p s (derivePace q t) := by
  rcases derivePace_eq q t with he | he
  · rwa [he]
  · rw [he]
    refine ⟨by rw [h.1]; rfl, fun x => ?_⟩
    by_cases hx : q = x
    · subst hx
      obtain ⟨heq, -⟩ := h.2 q
      rw [heq] at hm ht
      rw [modProgram_programs_self]
      refine ⟨by rw [heq], fun hn => absurd hn ?_⟩
      rintro (hn | hn)
      · exact hn hm
      · exact hn ht
    · rw [modProgram_programs_ne _ hx]
      exact h.2 x

theorem linkersPaced_deriveLinkers (p : ProgNo) (s : State) : LinkersPaced p s (deriveLinkers p s) := by
  refine forEach_keeps (P := LinkersPaced p s) _ (fun q t ht => ?_) s ⟨rfl, fun _ => ⟨rfl, fun _ => rfl⟩⟩
  split
  · next hc => exact linkersPaced_derivePace ht hc.1 hc.2
  · exact ht

/-! ### Entry to ACTIVE and leaving it (R27, R28) -/

/-- The program as it enters ACTIVE with this voice condition, pace, overlay and block deadline (R27). -/
def Program.entered (r : Program) (c : VoiceCond) (pc : Pace) (a : Option AnnNo) (d : Option Clock) : Program :=
  { r with state := .active, cond := c, pace := pc, lead := ⟨none, .fresh, none⟩, floor := ⟨none, .fresh, none⟩
           overlay := ⟨none, .fresh, none⟩, overlayAnn := a, blockDeadline := d }

/-- The program as it left ACTIVE (R28). -/
def Program.rested (r : Program) : Program :=
  { r with state := restState r, blockDeadline := none, lead := r.lead.idle, floor := r.floor.idle
           overlay := r.overlay.idle, overlayAnn := none, pace := .fill, cond := .voice }

/-- The voice condition at entry to ACTIVE (R30). -/
def enteredCond (s : State) (p : ProgNo) : VoiceCond :=
  if s.programs[p].mode = .interpreter ∧ interpreterAvailable s p = false ∧ guideAvailable s p = true then .fallback
  else .voice

/-- The hub with a program that has become ACTIVE, before voice condition, pace and overlay are derived. -/
def activated (p : ProgNo) (s : State) : State := s.modProgram p fun r =>
  { r with state := .active, lead := Reader.initial, floor := Reader.initial
           overlay := Reader.initial, overlayAnn := none, cond := .voice }

/-- The pace at entry to ACTIVE (R31). -/
def enteredPace (s : State) (p : ProgNo) : Pace :=
  derivedPace ((activated p s).modProgram p fun r => { r with cond := enteredCond s p }) p

/-- The block deadline at entry to ACTIVE (Table 3-3). -/
def enteredDeadline (s : State) (p : ProgNo) : Option Clock :=
  match enteredPace s p, s.programs[p].mode with
  | .fill, _ => some (s.after Config.blockMs)
  | .following, .linked => none
  | .following, _ => some (s.after (Config.blockMs + s.limits.mixSlackMs))

theorem derivedCond_activated (s : State) (p : ProgNo) : derivedCond (activated p s) p = enteredCond s p := by
  have hi : interpreterAvailable (activated p s) p = interpreterAvailable s p := by
    simp [interpreterAvailable, activated]
  have hg : guideAvailable (activated p s) p = guideAvailable s p := rfl
  have hp : (activated p s).programs[p].state = .active ∧ (activated p s).programs[p].cond = .voice ∧
      (activated p s).programs[p].mode = s.programs[p].mode := by
    rw [activated, modProgram_programs_self]; exact ⟨rfl, rfl, rfl⟩
  simp only [derivedCond, enteredCond, hi, hg, hp, true_and]
  cases interpreterAvailable s p <;> cases guideAvailable s p <;> simp

/-- A program without an overlay is given the one of R69, with a reader afresh. -/
theorem chooseOverlay_of_none (ha : s.programs[p].state = .active) (ho : s.programs[p].overlayAnn = none)
    (hr : s.programs[p].overlay = Reader.initial) :
    chooseOverlay p s = s.modProgram p fun r => { r with overlayAnn := chosenOverlay s p } := by
  have hsrc : overlaySource s p = none := by simp only [overlaySource, ho]
  have hact : ¬ s.programs[p].state ≠ .active := not_not_intro ha
  unfold chooseOverlay
  simp only [if_neg hact, hsrc, applyRemovalTo, ho]
  cases hc : chosenOverlay s p with
  | none =>
    rw [if_pos rfl, modProgram_of_fixed]
    rw [← ho]
  | some a =>
    rw [if_neg (by simp)]
    simp only [State.modProgram, ← hr]

/-- Entry to ACTIVE: the program as it enters, and then the pace of its linkers (R27). -/
theorem enterActive_eq (p : ProgNo) (s : State) : enterActive p s = deriveLinkers p (s.modProgram p fun r =>
    r.entered (enteredCond s p) (enteredPace s p) (chosenOverlay s p) (enteredDeadline s p)) := by
  have hstart : enterActive p s = deriveLinkers p (setBlockDeadline p (chooseOverlay p
      (((activated p s).modProgram p fun r => { r with cond := derivedCond (activated p s) p }).modProgram p
        fun r => { r with pace := derivedPace ((activated p s).modProgram p
          fun r => { r with cond := derivedCond (activated p s) p }) p }))) := rfl
  rw [hstart, derivedCond_activated]
  change deriveLinkers p (setBlockDeadline p (chooseOverlay p (((activated p s).modProgram p
    fun r => { r with cond := enteredCond s p }).modProgram p fun r => { r with pace := enteredPace s p }))) = _
  have hchosen (f : Program → Program) : chosenOverlay (s.modProgram p f) p = chosenOverlay s p :=
    chosenOverlay_congr (fun _ => rfl) rfl rfl
  rw [activated, modProgram_modProgram, modProgram_modProgram, chooseOverlay_of_none (by simp) (by simp) (by simp),
    hchosen, modProgram_modProgram, setBlockDeadline, modProgram_modProgram]
  refine congrArg (deriveLinkers p) ?_
  simp only [nextBlockDeadline, State.modProgram_limits, State.modProgram_programs, State.after,
    State.modProgram_clock, Fin.getElem_fin, Vector.getElem_set_self, Program.entered, enteredDeadline]
  rfl

/-- The removal rule changes frame stores (R14). -/
theorem applyRemoval_eq (i : SourceSlot) (s : State) :
    applyRemoval i s = { s with sources := (applyRemoval i s).sources } := by
  unfold applyRemoval
  dsimp only
  split <;> rfl

theorem applyRemovalTo_eq (i : Option SourceSlot) (s : State) :
    applyRemovalTo i s = { s with sources := (applyRemovalTo i s).sources } := by
  cases i with
  | none => rfl
  | some i => exact applyRemoval_eq i s

theorem forEach_applyRemoval_eq (is : List SourceSlot) (s : State) :
    forEach is applyRemoval s = { s with sources := (forEach is applyRemoval s).sources } :=
  forEach_keeps (P := fun t => t = { s with sources := t.sources }) _
    (fun i t ht => by rw [applyRemoval_eq, ht]) s rfl

/-- Leaving ACTIVE: the program at rest, removal at the sources it read, and then the pace of its linkers (R28). -/
theorem leaveActive_eq (p : ProgNo) (s : State) : ∃ v, SourcesTrimmed s { s with sources := v } ∧
    leaveActive p s = deriveLinkers p { s.modProgram p Program.rested with sources := v } := by
  have htrim : Grown (s.modProgram p Program.rested) _ := forEach_keeps ((fins 64).filter fun i => isReader s i p)
    (fun i t ht => (followKeeps_grown (s.modProgram p Program.rested)).applyRemoval i t ht) _ (Grown.refl _)
  refine ⟨_, htrim.1, ?_⟩
  change deriveLinkers p (forEach _ applyRemoval (s.modProgram p Program.rested)) = _
  rw [← forEach_applyRemoval_eq]

end Sys2Proof.Machine
end

section
/-! The derivation of one program (R26): what it brings about, what it leaves alone, and the demands it hands on. -/

namespace Sys2Proof.Machine

open Laws

variable {P : State → Prop} {s t u : State} {p q : ProgNo}

/-! ### The state of R26 brought about -/

/-- A program as R26 has it: entered, at rest, or as it was. -/
def resettled (s : State) (p : ProgNo) : Program :=
  if toBeActive s p then
    if s.programs[p].state = .active then s.programs[p]
    else s.programs[p].entered (enteredCond s p) (enteredPace s p) (chosenOverlay s p) (enteredDeadline s p)
  else if s.programs[p].state = .active then s.programs[p].rested
  else { s.programs[p] with state := restState s.programs[p] }

theorem resettled_setup (s : State) (p : ProgNo) : (resettled s p).setup = s.programs[p].setup := by
  unfold resettled
  split
  · split <;> rfl
  · split <;> rfl

theorem resettled_wanted (s : State) (p : ProgNo) : (resettled s p).wanted = s.programs[p].wanted := by
  unfold resettled
  split
  · split <;> rfl
  · split <;> rfl

theorem resettled_generation (s : State) (p : ProgNo) :
    (resettled s p).generation = s.programs[p].generation := by
  unfold resettled
  split
  · split <;> rfl
  · split <;> rfl

theorem restState_ne_active (r : Program) : restState r ≠ .active := by
  unfold restState
  split <;> simp

/-- The state that R26 gives. -/
theorem resettled_state (s : State) (p : ProgNo) :
    (resettled s p).state = if toBeActive s p then .active else restState s.programs[p] := by
  unfold resettled
  split
  · split
    · assumption
    · rfl
  · split <;> rfl

theorem LinkersPaced.refl (p : ProgNo) (s : State) : LinkersPaced p s s := ⟨rfl, fun _ => ⟨rfl, fun _ => rfl⟩⟩

/-- The program as R26 has it, oldest entries gone where it left a source, and then the pace of its linkers. -/
theorem settleState_spec (p : ProgNo) (s : State) : ∃ v, SourcesTrimmed s { s with sources := v } ∧
    LinkersPaced p { s.modProgram p fun _ => resettled s p with sources := v } (settleState p s) := by
  have hkeep : s.modProgram p (fun _ => s.programs[p]) = s := modProgram_of_fixed rfl
  unfold settleState resettled
  dsimp only
  split
  · split
    · rw [hkeep]
      exact ⟨s.sources, SourcesTrimmed.refl s, LinkersPaced.refl p s⟩
    · rw [enterActive_eq]
      exact ⟨s.sources, SourcesTrimmed.refl s, linkersPaced_deriveLinkers p _⟩
  · split
    · obtain ⟨v, hv, he⟩ := leaveActive_eq p s
      rw [he]
      exact ⟨v, hv, linkersPaced_deriveLinkers p _⟩
    · exact ⟨s.sources, SourcesTrimmed.refl s, LinkersPaced.refl p _⟩

/-! ### Demands leave the programs alone -/

/-- Demands change galleries, ports, notices and delivery log. -/
def OnlyDemands (s t : State) : Prop := t = { s with
  galleries := t.galleries, ports := t.ports, notices := t.notices, noticeOverflow := t.noticeOverflow, log := t.log }

theorem demandKeeps_onlyDemands (s : State) : DemandKeeps (OnlyDemands s) where
  gallery t g f h := by rw [OnlyDemands, h]; rfl
  notice k a b d t h := by rw [OnlyDemands, queueNotice_eq, h]
  frame p f t h := by rw [OnlyDemands, handFrame_eq, h]

theorem onlyDemands_forEach_arrival (p : ProgNo) (gs : List PortNo) (s : State) :
    OnlyDemands s (forEach gs (demandArrival p) s) :=
  forEach_keeps (P := OnlyDemands s) _ (fun g t ht => (demandKeeps_onlyDemands s).demandArrival p g t ht) s rfl

theorem onlyDemands_forEach_end (p : ProgNo) (gs : List PortNo) (s : State) :
    OnlyDemands s (forEach gs (demandEnd p) s) :=
  forEach_keeps (P := OnlyDemands s) _ (fun g t ht => (demandKeeps_onlyDemands s).demandEnd p g t ht) s rfl

/-! ### The derivation -/

/-- Wanted as it is, before state and demand follow. -/
def wantedNow (p : ProgNo) (s : State) : State := s.modProgram p fun r => { r with wanted := isWanted s p }

/-- The state derived, before demands. -/
def stateDerived (p : ProgNo) (s : State) : State := settleState p (wantedNow p s)

theorem derive_eq (p : ProgNo) (s : State) : derive p s =
    if isWanted s p && !s.programs[p].wanted then demandArrivals p (stateDerived p s)
    else if s.programs[p].wanted && !isWanted s p then demandEnds p (stateDerived p s)
    else stateDerived p s := rfl

theorem onlyDemands_derive (p : ProgNo) (s : State) : OnlyDemands (stateDerived p s) (derive p s) := by
  rw [derive_eq]
  split
  · exact onlyDemands_forEach_arrival p _ _
  · split
    · exact onlyDemands_forEach_end p _ _
    · rfl

theorem derive_programs (p : ProgNo) (s : State) : (derive p s).programs = (stateDerived p s).programs := by
  rw [onlyDemands_derive p s]

theorem derive_sources (p : ProgNo) (s : State) : (derive p s).sources = (stateDerived p s).sources := by
  rw [onlyDemands_derive p s]

theorem sameSetup_wantedNow (p : ProgNo) (s : State) : SameSetup s (wantedNow p s) :=
  sameSetup_modProgram fun _ => rfl

/-- What the derivation of `p` does to the programs and sources (R26 to R28). -/
theorem stateDerived_spec (p : ProgNo) (s : State) : ∃ v, SourcesTrimmed s { s with sources := v } ∧
    LinkersPaced p { s.modProgram p fun _ => resettled (wantedNow p s) p with sources := v }
      (stateDerived p s) := by
  obtain ⟨v, hv, hl⟩ := settleState_spec p (wantedNow p s)
  refine ⟨v, hv, ?_⟩
  rwa [wantedNow, modProgram_modProgram] at hl

theorem stateDerived_eq (p : ProgNo) (s : State) : stateDerived p s =
    { s with programs := (stateDerived p s).programs, sources := (stateDerived p s).sources } := by
  obtain ⟨v, -, hl⟩ := stateDerived_spec p s
  rw [hl.1]
  rfl

/-- The program derived is as R26 has it, but for the pace of one that targets itself. -/
theorem derive_self (p : ProgNo) (s : State) :
    (derive p s).programs[p] = { resettled (wantedNow p s) p with
      pace := (derive p s).programs[p].pace, blockDeadline := (derive p s).programs[p].blockDeadline } ∧
    (s.programs[p].target ≠ some p → (derive p s).programs[p] = resettled (wantedNow p s) p) := by
  obtain ⟨v, -, hl⟩ := stateDerived_spec p s
  obtain ⟨he, hn⟩ := hl.2 p
  rw [← derive_programs] at he hn
  dsimp only at he hn
  rw [modProgram_programs_self] at he hn
  refine ⟨he, fun ht => hn (.inr ?_)⟩
  obtain ⟨-, -, htarget, -⟩ := setup_eq_iff.mp ((resettled_setup (wantedNow p s) p).trans
    ((sameSetup_wantedNow p s).2 p))
  rwa [htarget]

/-- Another program keeps all but the pace of a linker. -/
theorem derive_ne (s : State) (h : q ≠ p) :
    (derive p s).programs[q] = { s.programs[q] with
      pace := (derive p s).programs[q].pace, blockDeadline := (derive p s).programs[q].blockDeadline } ∧
    (s.programs[q].mode ≠ .linked ∨ s.programs[q].target ≠ some p →
      (derive p s).programs[q] = s.programs[q]) := by
  obtain ⟨v, -, hl⟩ := stateDerived_spec p s
  have hq := hl.2 q
  rw [← derive_programs] at hq
  dsimp only at hq
  rwa [modProgram_programs_ne _ h.symm] at hq

/-- The whole of what a derivation leaves alone. -/
theorem derive_frame (p : ProgNo) (s : State) : derive p s = { s with
    programs := (derive p s).programs, sources := (derive p s).sources, galleries := (derive p s).galleries
    ports := (derive p s).ports, notices := (derive p s).notices
    noticeOverflow := (derive p s).noticeOverflow, log := (derive p s).log } := by
  have h := onlyDemands_derive p s
  rw [OnlyDemands, stateDerived_eq] at h
  rw [h]

theorem sameSetup_derive (p : ProgNo) (s : State) : SameSetup s (derive p s) := by
  refine ⟨fun n => by rw [derive_frame], fun q => ?_⟩
  by_cases h : q = p
  · subst h
    rw [(derive_self q s).1]
    exact (resettled_setup (wantedNow q s) q).trans ((sameSetup_wantedNow q s).2 q)
  · rw [(derive_ne s h).1]
    rfl

theorem derive_generation (p q : ProgNo) (s : State) :
    (derive p s).programs[q].generation = s.programs[q].generation := by
  by_cases h : q = p
  · subst h
    rw [(derive_self q s).1]
    dsimp only
    rw [resettled_generation, wantedNow, modProgram_programs_self]
  · rw [(derive_ne s h).1]

theorem derive_wanted (p : ProgNo) (s : State) : (derive p s).programs[p].wanted = isWanted s p := by
  rw [(derive_self p s).1]
  dsimp only
  rw [resettled_wanted, wantedNow, modProgram_programs_self]

theorem derive_state (p : ProgNo) (s : State) :
    (derive p s).programs[p].state = if toBeActive s p then .active else restState s.programs[p] := by
  have h := sameSetup_wantedNow p s
  rw [(derive_self p s).1]
  dsimp only
  rw [resettled_state, h.toBeActive_eq, h.restState_eq]

/-- A program derived stands as R26 gives. -/
theorem settled_derive (p : ProgNo) (s : State) : Settled (derive p s) p := by
  have h := sameSetup_derive p s
  refine ⟨by rw [derive_wanted, h.isWanted_eq], ?_, fun hn => ?_⟩
  · rw [derive_state, h.toBeActive_eq]
    split
    · simp [*]
    · simp [*, restState_ne_active]
  · rw [derive_state] at hn ⊢
    rw [h.restState_eq]
    split at hn
    · exact absurd rfl hn
    · rw [if_neg]; assumption

/-- A program that stood as R26 gives still does. -/
theorem settled_derive_of_settled (p : ProgNo) (h : Settled s q) : Settled (derive p s) q := by
  by_cases hq : q = p
  · subst hq; exact settled_derive q s
  · have he := (derive_ne s hq).1
    exact settled_congr (sameSetup_derive p s) (by rw [he]) (by rw [he]) h

theorem sameSetup_forEach_derive (ps : List ProgNo) (s : State) : SameSetup s (forEach ps derive s) :=
  forEach_keeps (P := SameSetup s) _ (fun p t ht => ht.trans (sameSetup_derive p t)) s (SameSetup.refl s)

/-- Programs derived in turn all stand as R26 gives. -/
theorem settled_forEach_derive (ps : List ProgNo) (s : State) (h : q ∈ ps ∨ Settled s q) :
    Settled (forEach ps derive s) q := by
  induction ps generalizing s with
  | nil => exact h.resolve_left List.not_mem_nil
  | cons p ps ih =>
    refine ih _ ?_
    rcases h with h | h
    · rcases List.mem_cons.mp h with rfl | h
      · exact .inr (settled_derive q s)
      · exact .inl h
    · exact .inr (settled_derive_of_settled p h)

/-- The derivation of a program that stands as R26 gives has no effect. -/
theorem derive_of_settled (h : Settled s p) : derive p s = s := by
  obtain ⟨hw, ha, hr⟩ := h
  have hnow : wantedNow p s = s := modProgram_of_fixed (by rw [← hw])
  have hstate : stateDerived p s = s := by
    rw [stateDerived, hnow, settleState]
    by_cases hb : toBeActive s p = true
    · simp only [if_pos hb, if_pos (ha.mpr hb)]
    · have hn : ¬ s.programs[p].state = .active := mt ha.mp hb
      simp only [if_neg hb, if_neg hn]
      exact modProgram_of_fixed (by rw [← hr hn])
  rw [derive_eq, hstate, hw]
  cases isWanted s p <;> rfl

theorem grown_derive (p : ProgNo) (s : State) : Grown s (derive p s) :=
  (followKeeps_grown s).derive p s (Grown.refl s)

end Sys2Proof.Machine
end

section
/-! Demands at a port (R97 to R105): what they leave of other ports, and who is served or waits afterwards. -/

namespace Sys2Proof.Machine

open Laws

variable {s : State} {g h : PortNo} {p : ProgNo}

/-! ### One port -/

theorem modGallery_galleries_self (s : State) (g : PortNo) (f : Gallery → Gallery) :
    (s.modGallery g f).galleries[g] = f s.galleries[g] := by simp

theorem modGallery_galleries_ne (s : State) (hne : g ≠ h) (f : Gallery → Gallery) :
    (s.modGallery g f).galleries[h] = s.galleries[h] := by
  have hv : g.val ≠ h.val := fun e => hne (Fin.ext e)
  simp [Vector.getElem_set_ne, hv]

theorem modCarrier_galleries_ne (s : State) (hne : g ≠ h) (c : CarrierNo) (f : Carrier → Carrier) :
    (s.modCarrier g c f).galleries[h] = s.galleries[h] := modGallery_galleries_ne s hne _

theorem goLive_galleries (g : PortNo) (c : CarrierNo) (p : ProgNo) (s : State) : (goLive g c p s).galleries =
    (s.modCarrier g c fun _ => ⟨.live, some p, none, none⟩).galleries := by
  rw [goLive, carrierReady, queueNotice_galleries]

theorem goLive_galleries_ne (hne : g ≠ h) (c : CarrierNo) (p : ProgNo) (s : State) :
    (goLive g c p s).galleries[h] = s.galleries[h] := by
  rw [goLive_galleries, modCarrier_galleries_ne s hne]

theorem startSettle_galleries_ne (hne : g ≠ h) (c : CarrierNo) (p : ProgNo) (s : State) :
    (startSettle g c p s).galleries[h] = s.galleries[h] := by
  unfold startSettle
  split
  · exact goLive_galleries_ne hne c p s
  · exact modCarrier_galleries_ne s hne c _

theorem putWaiting_galleries_ne (hne : g ≠ h) (p : ProgNo) (s : State) :
    (putWaiting g p s).galleries[h] = s.galleries[h] := by
  rw [putWaiting, queueNotice_galleries, modGallery_galleries_ne s hne]

theorem allocate_galleries_ne (hne : g ≠ h) (p : ProgNo) (s : State) :
    (allocate g p s).galleries[h] = s.galleries[h] := by
  unfold allocate
  split
  · exact goLive_galleries_ne hne _ p s
  · split
    · exact startSettle_galleries_ne hne _ _ s
    · split
      · exact startSettle_galleries_ne hne _ _ s
      · unfold preemptOrWait
        split
        · exact putWaiting_galleries_ne hne p s
        · split
          · rw [putWaiting_galleries_ne hne, startSettle_galleries_ne hne]
          · exact putWaiting_galleries_ne hne p s

theorem releaseCarrier_galleries_ne (hne : g ≠ h) (c : CarrierNo) (p : ProgNo) (s : State) :
    (releaseCarrier g c p s).galleries[h] = s.galleries[h] := by
  unfold releaseCarrier
  split
  · rw [handOver, startSettle_galleries_ne hne, queueNotice_galleries, modGallery_galleries_ne s hne]
  · unfold parkCarrier
    split <;> rw [modCarrier_galleries_ne s hne]

/-- An event of the carrier unit on a port is, for carriers and wait list of any port, what it does (R108). -/
theorem carrierEvent_galleries (g h : PortNo) (f : State → State) (s : State) :
    (carrierEvent g f s).galleries[h] = { (f s).galleries[h] with
      mapRefresh := (carrierEvent g f s).galleries[h].mapRefresh } ∧
    (g ≠ h → (carrierEvent g f s).galleries[h] = (f s).galleries[h]) := by
  unfold carrierEvent
  dsimp only
  split
  · exact ⟨rfl, fun _ => rfl⟩
  · have hframe : (handFrame g (.carrierMap (mapView (f s).galleries[g])) (f s)).galleries = (f s).galleries := by
      simp
    unfold sendMap
    dsimp only
    refine ⟨?_, fun hne => ?_⟩
    · by_cases hgh : g = h
      · subst hgh; rw [modGallery_galleries_self, hframe]
      · rw [modGallery_galleries_ne _ hgh, hframe]
    · rw [modGallery_galleries_ne _ hne, hframe]

theorem demandArrival_galleries_ne (hne : g ≠ h) (p : ProgNo) (s : State) :
    (demandArrival p g s).galleries[h] = s.galleries[h] := by
  unfold demandArrival
  split
  · rfl
  · rw [(carrierEvent_galleries g h _ s).2 hne, allocate_galleries_ne hne]

theorem demandEnd_galleries_ne (hne : g ≠ h) (p : ProgNo) (s : State) :
    (demandEnd p g s).galleries[h] = s.galleries[h] := by
  unfold demandEnd
  split
  · exact modGallery_galleries_ne s hne _
  · split
    · rfl
    · rw [(carrierEvent_galleries g h _ s).2 hne, releaseCarrier_galleries_ne hne]

/-! ### Served or waiting after an arrival (R97 to R101) -/

theorem servingCarrier_isSome_of {e : Gallery} {c : CarrierNo} (hp : e.carriers[c].program = some p)
    (hst : e.carriers[c].state = .settling ∨ e.carriers[c].state = .live) :
    (servingCarrier e p).isSome = true := by
  have hfind (st : CarrierState) (h : e.carriers[c].state = st) : (carrierWith e st p).isSome = true := by
    rw [carrierWith, List.find?_isSome]
    exact ⟨c, mem_fins c, by simp only [h, hp, beq_self_eq_true, Bool.and_self]⟩
  unfold servingCarrier
  split
  · rfl
  · next hn =>
    refine hfind .live (hst.resolve_left fun hs => ?_)
    have := hfind .settling hs
    rw [hn] at this
    exact Bool.false_ne_true this

theorem servedOrWaiting_congr {t : State} (hc : t.galleries[g].carriers = s.galleries[g].carriers)
    (hw : t.galleries[g].waitList = s.galleries[g].waitList) (hs : ServedOrWaiting s p g) :
    ServedOrWaiting t p g := by
  simpa only [ServedOrWaiting, servingCarrier, carrierWith, isWaiting, hc, hw] using hs

theorem modCarrier_carriers_self (s : State) (g : PortNo) (c : CarrierNo) (f : Carrier → Carrier) :
    (s.modCarrier g c f).galleries[g].carriers[c] = f s.galleries[g].carriers[c] := by simp

theorem modCarrier_waitList (s : State) (g : PortNo) (c : CarrierNo) (f : Carrier → Carrier) :
    (s.modCarrier g c f).galleries[g].waitList = s.galleries[g].waitList := by simp

theorem goLive_serves (g : PortNo) (c : CarrierNo) (p : ProgNo) (s : State) :
    ServedOrWaiting (goLive g c p s) p g := by
  refine .inl (servingCarrier_isSome_of (c := c) ?_ (.inr ?_)) <;>
    rw [goLive_galleries, modCarrier_carriers_self]

theorem startSettle_serves (g : PortNo) (c : CarrierNo) (p : ProgNo) (s : State) :
    ServedOrWaiting (startSettle g c p s) p g := by
  unfold startSettle
  split
  · exact goLive_serves g c p s
  · refine .inl (servingCarrier_isSome_of (c := c) ?_ (.inl ?_)) <;> rw [modCarrier_carriers_self]

theorem mem_insertBefore {α : Type} {b : α → α → Bool} {x y : α} {l : List α} :
    y ∈ insertBefore b x l ↔ y = x ∨ y ∈ l := by
  induction l with
  | nil => simp [insertBefore]
  | cons z zs ih =>
    unfold insertBefore
    split
    · simp
    · simp only [List.mem_cons, ih]
      tauto

theorem putWaiting_waits (g : PortNo) (p : ProgNo) (s : State) : ServedOrWaiting (putWaiting g p s) p g := by
  refine .inr ?_
  rw [putWaiting, queueNotice_galleries, modGallery_galleries_self, isWaiting, List.any_eq_true]
  exact ⟨⟨p, s.clock⟩, mem_insertBefore.mpr (.inl rfl), beq_self_eq_true p⟩

/-- Another program put on the wait list takes no carrier and no place. -/
theorem servedOrWaiting_putWaiting (q : ProgNo) (hs : ServedOrWaiting s p g) :
    ServedOrWaiting (putWaiting g q s) p g := by
  rw [putWaiting]
  rcases hs with hs | hs
  · refine .inl ?_
    rw [queueNotice_galleries, modGallery_galleries_self]
    exact hs
  · refine .inr ?_
    rw [queueNotice_galleries, modGallery_galleries_self, isWaiting, List.any_eq_true]
    rw [isWaiting, List.any_eq_true] at hs
    obtain ⟨w, hw, he⟩ := hs
    exact ⟨w, mem_insertBefore.mpr (.inr hw), he⟩

/-- An allocation serves the program or puts it on the wait list (R98 to R101). -/
theorem allocate_serves (g : PortNo) (p : ProgNo) (s : State) : ServedOrWaiting (allocate g p s) p g := by
  unfold allocate
  split
  · exact goLive_serves g _ p s
  · split
    · exact startSettle_serves g _ p s
    · split
      · exact startSettle_serves g _ p s
      · unfold preemptOrWait
        split
        · exact putWaiting_waits g p s
        · split
          · exact servedOrWaiting_putWaiting _ (startSettle_serves g _ p s)
          · exact putWaiting_waits g p s

theorem demandArrival_serves (p : ProgNo) (g : PortNo) (s : State) :
    ServedOrWaiting (demandArrival p g s) p g := by
  unfold demandArrival
  split
  · next hs => simpa only [ServedOrWaiting, Bool.or_eq_true] using hs
  · have he := (carrierEvent_galleries g g (allocate g p) s).1
    exact servedOrWaiting_congr (by rw [he]) (by rw [he]) (allocate_serves g p s)

/-- A further arrival of the program leaves it served or waiting. -/
theorem servedOrWaiting_demandArrival (h : PortNo) (hs : ServedOrWaiting s p g) :
    ServedOrWaiting (demandArrival p h s) p g := by
  by_cases hgh : h = g
  · subst hgh; exact demandArrival_serves p h s
  · have he := demandArrival_galleries_ne hgh p s
    exact servedOrWaiting_congr (by rw [he]) (by rw [he]) hs

/-- Arrivals on several ports: the program is served or waits on each. -/
theorem servedOrWaiting_forEach_arrival (gs : List PortNo) (s : State)
    (h : g ∈ gs ∨ ServedOrWaiting s p g) : ServedOrWaiting (forEach gs (demandArrival p) s) p g := by
  induction gs generalizing s with
  | nil => exact h.resolve_left List.not_mem_nil
  | cons x gs ih =>
    refine ih _ ?_
    rcases h with h | h
    · rcases List.mem_cons.mp h with rfl | h
      · exact .inr (demandArrival_serves p g s)
      · exact .inl h
    · exact .inr (servedOrWaiting_demandArrival x h)

/-! ### No one waiting after a demand end (R103) -/

theorem goLive_waitList (g : PortNo) (c : CarrierNo) (p : ProgNo) (s : State) :
    (goLive g c p s).galleries[g].waitList = s.galleries[g].waitList := by
  rw [goLive_galleries, modCarrier_waitList]

theorem startSettle_waitList (g : PortNo) (c : CarrierNo) (p : ProgNo) (s : State) :
    (startSettle g c p s).galleries[g].waitList = s.galleries[g].waitList := by
  unfold startSettle
  split
  · exact goLive_waitList g c p s
  · exact modCarrier_waitList s g c _

/-- A carrier released takes at most the head from the wait list (R104, R105). -/
theorem releaseCarrier_waitList (g : PortNo) (c : CarrierNo) (p : ProgNo) (s : State) :
    (releaseCarrier g c p s).galleries[g].waitList = s.galleries[g].waitList.drop 1 := by
  unfold releaseCarrier
  split
  · next w rest hw =>
    rw [handOver, startSettle_waitList, queueNotice_galleries, modGallery_galleries_self, hw]
    rfl
  · next hw =>
    unfold parkCarrier
    split <;> rw [modCarrier_waitList, hw] <;> rfl

theorem demandEnd_not_waiting (p : ProgNo) (g : PortNo) (s : State) :
    isWaiting (demandEnd p g s).galleries[g] p = false := by
  unfold demandEnd
  split
  · rw [modGallery_galleries_self, isWaiting, List.any_eq_false]
    intro w hw
    simpa using (List.mem_filter.mp hw).2
  · next hn =>
    rw [Bool.not_eq_true] at hn
    split
    · exact hn
    · next c _ =>
      have he := (carrierEvent_galleries g g (releaseCarrier g c p) s).1
      rw [isWaiting, List.any_eq_false] at hn ⊢
      rw [he]
      dsimp only
      rw [releaseCarrier_waitList]
      exact fun w hw => hn w (List.mem_of_mem_drop hw)

/-- Ends on several ports: the program waits on none of them. -/
theorem not_waiting_forEach_end (gs : List PortNo) (s : State)
    (h : g ∈ gs ∨ isWaiting s.galleries[g] p = false) :
    isWaiting (forEach gs (demandEnd p) s).galleries[g] p = false := by
  induction gs generalizing s with
  | nil => exact h.resolve_left List.not_mem_nil
  | cons x gs ih =>
    refine ih _ ?_
    by_cases hx : x = g
    · subst hx; exact .inr (demandEnd_not_waiting p x s)
    · rw [demandEnd_galleries_ne hx]
      exact h.imp_left fun h => (List.mem_cons.mp h).resolve_left (Ne.symm hx)

end Sys2Proof.Machine
end

section
/-! Entry to ACTIVE and leaving it, and the demands of one program, as R26 to R31 give them. -/

namespace Sys2Proof.Machine

open Laws

variable {s t : State} {p q : ProgNo}

/-! ### Voice condition and pace at entry (R30, R31) -/

theorem enteredCond_iff : enteredCond s p = .fallback ↔ s.programs[p].mode = .interpreter ∧
    interpreterAvailable s p = false ∧ guideAvailable s p = true := by
  unfold enteredCond
  split
  · next h => exact ⟨fun _ => h, fun _ => rfl⟩
  · next h => exact ⟨fun hc => (nomatch hc), fun hc => absurd hc h⟩

theorem derivedPace_iff : derivedPace s p = .following ↔ leadPresent s p = true := by
  unfold derivedPace
  split <;> simp [*]

/-- The lead that is present at entry, by the program's mode (Table 2-4). -/
theorem enteredPace_iff (ht : s.programs[p].target ≠ some p) : enteredPace s p = .following ↔
    (s.programs[p].mode = .guide ∧ guideAvailable s p = true) ∨
      (s.programs[p].mode = .interpreter ∧ (interpreterAvailable s p = true ∨ guideAvailable s p = true)) ∨
      (s.programs[p].mode = .linked ∧ ∃ q, s.programs[p].target = some q ∧
        s.programs[q].state = .active) := by
  rw [enteredPace, derivedPace_iff, activated, modProgram_modProgram]
  generalize hu : (s.modProgram p fun r => { r with
    state := .active, lead := Reader.initial, floor := Reader.initial, overlay := Reader.initial
    overlayAnn := none, cond := enteredCond s p }) = u
  have hself : u.programs[p] = { s.programs[p] with
      state := .active, lead := Reader.initial, floor := Reader.initial, overlay := Reader.initial
      overlayAnn := none, cond := enteredCond s p } := by rw [← hu, modProgram_programs_self]
  have hother (q : ProgNo) (hq : q ≠ p) : u.programs[q] = s.programs[q] := by
    rw [← hu, modProgram_programs_ne _ hq.symm]
  have hi : interpreterAvailable u p = interpreterAvailable s p := by
    rw [interpreterAvailable, hself, ← hu]; rfl
  have hg : guideAvailable u p = guideAvailable s p := by rw [← hu]; rfl
  rw [leadPresent, hself, hi, hg]
  cases hm : s.programs[p].mode with
  | unset => simp
  | guide => simp
  | interpreter =>
    have hc : enteredCond s p = .fallback ↔ interpreterAvailable s p = false ∧ guideAvailable s p = true := by
      rw [enteredCond_iff, and_iff_right hm]
    cases he : enteredCond s p with
    | fallback => simp [(hc.mp he).2]
    | voice =>
      have hn : ¬ (interpreterAvailable s p = false ∧ guideAvailable s p = true) := by
        rw [← hc, he]; simp
      cases hia : interpreterAvailable s p <;> simp_all
  | linked =>
    cases hq : s.programs[p].target with
    | none => simp
    | some q =>
      have hne : q ≠ p := fun h => ht (h ▸ hq)
      simp [hother q hne]

theorem enteredDeadline_eq (s : State) (p : ProgNo) : enteredDeadline s p =
    if enteredPace s p = .fill then some (s.clock + 4)
    else if s.programs[p].mode = .linked then none
    else some (s.clock + BitVec.ofNat 32 (4 + s.limits.mixSlackMs)) := by
  unfold enteredDeadline
  cases enteredPace s p with
  | fill => rfl
  | following => cases s.programs[p].mode <;> rfl

/-! ### Wanted is not looked at by the derivation of the state -/

theorem wantedNow_program (p q : ProgNo) (s : State) : (wantedNow p s).programs[q] = { s.programs[q] with
    wanted := (wantedNow p s).programs[q].wanted } := by
  by_cases h : p = q
  · subst h; rw [wantedNow, modProgram_programs_self]
  · rw [wantedNow, modProgram_programs_ne _ h]

theorem interpreterAvailable_wantedNow (p : ProgNo) (s : State) :
    interpreterAvailable (wantedNow p s) p = interpreterAvailable s p := by
  rw [interpreterAvailable, wantedNow_program]
  rfl

theorem enteredCond_wantedNow (p : ProgNo) (s : State) : enteredCond (wantedNow p s) p = enteredCond s p := by
  unfold enteredCond
  rw [interpreterAvailable_wantedNow, wantedNow_program]
  rfl

theorem Pace.eq_of_following_iff {a b : Pace} (h : a = .following ↔ b = .following) : a = b := by
  cases a <;> cases b <;> simp_all

theorem enteredPace_wantedNow (ht : s.programs[p].target ≠ some p) :
    enteredPace (wantedNow p s) p = enteredPace s p := by
  have hp := wantedNow_program p p s
  have hst (q : ProgNo) : (wantedNow p s).programs[q].state = s.programs[q].state := by rw [wantedNow_program]
  refine Pace.eq_of_following_iff ?_
  rw [enteredPace_iff ht, enteredPace_iff (by rw [hp]; exact ht), interpreterAvailable_wantedNow, hp]
  simp only [hst]
  rfl

theorem enteredDeadline_wantedNow (ht : s.programs[p].target ≠ some p) :
    enteredDeadline (wantedNow p s) p = enteredDeadline s p := by
  rw [enteredDeadline_eq, enteredDeadline_eq, enteredPace_wantedNow ht, wantedNow_program]
  rfl

theorem chosenOverlay_wantedNow (p : ProgNo) (s : State) :
    chosenOverlay (wantedNow p s) p = chosenOverlay s p := chosenOverlay_congr (fun _ => rfl) rfl rfl

/-! ### The program derived, case by case -/

theorem toBeActive_wantedNow (p : ProgNo) (s : State) : toBeActive (wantedNow p s) p = toBeActive s p :=
  (sameSetup_wantedNow p s).toBeActive_eq p

/-- A program that is to become ACTIVE enters (R27). -/
theorem derive_enters (ht : s.programs[p].target ≠ some p) (hs : s.programs[p].state ≠ .active)
    (ha : toBeActive s p = true) : (derive p s).programs[p] =
      { s.programs[p].entered (enteredCond s p) (enteredPace s p) (chosenOverlay s p) (enteredDeadline s p) with
        wanted := isWanted s p } := by
  have hst : (wantedNow p s).programs[p].state ≠ .active := by rwa [wantedNow_program]
  rw [(derive_self p s).2 ht, resettled, toBeActive_wantedNow, if_pos ha, if_neg hst, enteredCond_wantedNow,
    enteredPace_wantedNow ht, chosenOverlay_wantedNow, enteredDeadline_wantedNow ht, wantedNow,
    modProgram_programs_self]
  rfl

/-- A program that is to be ACTIVE no more leaves (R28). -/
theorem derive_leaves (ht : s.programs[p].target ≠ some p) (hs : s.programs[p].state = .active)
    (ha : ¬ toBeActive s p = true) :
    (derive p s).programs[p] = { s.programs[p].rested with wanted := isWanted s p } := by
  have hst : (wantedNow p s).programs[p].state = .active := by rwa [wantedNow_program]
  rw [(derive_self p s).2 ht, resettled, toBeActive_wantedNow, if_neg ha, if_pos hst, wantedNow,
    modProgram_programs_self]
  rfl

theorem derive_stays (ht : s.programs[p].target ≠ some p) (hs : s.programs[p].state = .active)
    (ha : toBeActive s p = true) : (derive p s).programs[p] = { s.programs[p] with wanted := isWanted s p } := by
  have hst : (wantedNow p s).programs[p].state = .active := by rwa [wantedNow_program]
  rw [(derive_self p s).2 ht, resettled, toBeActive_wantedNow, if_pos ha, if_pos hst, wantedNow,
    modProgram_programs_self]

/-! ### The demands handed on -/

theorem stateDerived_eq_derive (p : ProgNo) (s : State) : stateDerived p s =
    { s with programs := (derive p s).programs, sources := (derive p s).sources } := by
  rw [derive_programs, derive_sources, ← stateDerived_eq]

theorem derive_arrives (hw : s.programs[p].wanted = false) (hn : isWanted s p = true) :
    derive p s = forEach s.tours[tourOf p].gallerySet (demandArrival p)
      { s with programs := (derive p s).programs, sources := (derive p s).sources } := by
  have htours : (stateDerived p s).tours = s.tours := by rw [stateDerived_eq]
  rw [← stateDerived_eq_derive, derive_eq, hw, hn, ← htours]
  rfl

theorem derive_ends (hw : s.programs[p].wanted = true) (hn : isWanted s p = false) :
    derive p s = forEach s.tours[tourOf p].gallerySet (demandEnd p)
      { s with programs := (derive p s).programs, sources := (derive p s).sources } := by
  have htours : (stateDerived p s).tours = s.tours := by rw [stateDerived_eq]
  rw [← stateDerived_eq_derive, derive_eq, hw, hn, ← htours]
  rfl

theorem derive_without_demand (h : s.programs[p].wanted = isWanted s p) :
    derive p s = { s with programs := (derive p s).programs, sources := (derive p s).sources } := by
  rw [← stateDerived_eq_derive, derive_eq, h]
  cases isWanted s p <;> rfl

/-- Settles O27: each clause by the lemma of its case; the demands as folds over the gallery set. -/
theorem activeFollowsWanted : Obligations.ActiveFollowsWanted := by
  unfold Obligations.ActiveFollowsWanted
  intro s p ht mixable wanted active t
  have hwanted (q : ProgNo) : isWanted s q = true ↔ wanted q := isWanted_iff
  have hactive : toBeActive s p = true ↔ active := by
    rw [toBeActive_iff]
    simp only [hwanted]
    rfl
  have hset := sameSetup_derive p s
  have hwas (h : s.programs[p].wanted = false) (hw : wanted p) := derive_arrives h ((hwanted p).mpr hw)
  have hends (h : s.programs[p].wanted = true) (hw : ¬ wanted p) :=
    derive_ends h (Bool.eq_false_iff.mpr (mt (hwanted p).mp hw))
  obtain ⟨htrim, hports, hnotices⟩ := grown_derive p s
  refine ⟨?_, ?_, fun hn => ?_, fun hs ha => ?_, fun hs ha => ?_, fun hs ha => ?_, hwas, hends, fun h hw g hg => ?_,
    fun h hw g hg => ?_, fun h => ?_, fun q hq => derive_ne s hq, htrim, hports, hnotices, derive_frame p s⟩
  · rw [← hwanted]
    exact iff_of_eq (congrArg (· = true) (derive_wanted p s))
  · rw [← hactive, (settled_derive p s).2.1, hset.toBeActive_eq]
  · rw [← hactive] at hn
    exact (derive_state p s).trans (if_neg hn)
  · refine ⟨enteredCond s p, enteredPace s p, enteredCond_iff, enteredPace_iff ht, ?_⟩
    rw [← enteredDeadline_eq, show t.programs[p].wanted = _ from derive_wanted p s]
    exact derive_enters ht hs (hactive.mpr ha)
  · rw [show t.programs[p].wanted = _ from derive_wanted p s]
    exact derive_leaves ht hs (mt hactive.mp ha)
  · rw [show t.programs[p].wanted = _ from derive_wanted p s]
    exact derive_stays ht hs (hactive.mpr ha)
  · change ServedOrWaiting (derive p s) p g
    rw [hwas h hw]
    exact servedOrWaiting_forEach_arrival _ _ (.inl hg)
  · change isWaiting (derive p s).galleries[g] p = false
    rw [hends h hw]
    exact not_waiting_forEach_end _ _ (.inl hg)
  · refine derive_without_demand ?_
    rw [Bool.eq_iff_iff, h, hwanted]

end Sys2Proof.Machine
end

section
/-! Galleries that join the set of a tour (R80), and OPEN_TOUR (R21, R83). -/

namespace Sys2Proof.Machine

open Laws

variable {P : State → Prop} {s t u : State} {p q : ProgNo} {n : TourNo}

/-! ### What programs, demands and overlays leave -/

/-- Only programs, frame stores, galleries and what frames and notices change differ. -/
def OnlyFollowers (s t : State) : Prop := t = { s with
  programs := t.programs, sources := t.sources, galleries := t.galleries, ports := t.ports
  notices := t.notices, noticeOverflow := t.noticeOverflow, log := t.log }

theorem mixKeeps_onlyFollowers (s : State) : MixKeeps (OnlyFollowers s) where
  trim t i q h := by rw [OnlyFollowers, h]; rfl
  program t p f h := by rw [OnlyFollowers, h]; rfl
  notice k a b d t h := by rw [OnlyFollowers, queueNotice_eq, h]
  frame p f t h := by rw [OnlyFollowers, handFrame_eq, h]

theorem demandKeeps_onlyFollowers (s : State) : DemandKeeps (OnlyFollowers s) where
  gallery t g f h := by rw [OnlyFollowers, h]; rfl
  notice := (mixKeeps_onlyFollowers s).notice
  frame := (mixKeeps_onlyFollowers s).frame

theorem OnlyFollowers.trans (h : OnlyFollowers s t) (h' : OnlyFollowers t u) : OnlyFollowers s u := by
  rw [OnlyFollowers, h', h]

theorem OnlyFollowers.tours (h : OnlyFollowers s t) : t.tours = s.tours := by rw [h]

theorem OnlyFollowers.hearing (h : OnlyFollowers s t) : t.hearing = s.hearing := by rw [h]

theorem OnlyFollowers.guideFrozen (h : OnlyFollowers s t) : t.guideFrozen = s.guideFrozen := by rw [h]

theorem onlyFollowers_derive (p : ProgNo) (s : State) : OnlyFollowers s (derive p s) := derive_frame p s

theorem onlyFollowers_forEach_derive (ps : List ProgNo) (s : State) : OnlyFollowers s (forEach ps derive s) :=
  forEach_keeps (P := OnlyFollowers s) _ (fun p t ht => ht.trans (onlyFollowers_derive p t)) s rfl

/-! ### Programs that stand as R26 gives, once a set changed -/

/-- The programs of two hubs have the same setup, and are wanted and ACTIVE alike. -/
def StandAlike (s t : State) : Prop :=
  SameSetup s t ∧ ∀ q : ProgNo,
    t.programs[q].wanted = s.programs[q].wanted ∧ t.programs[q].state = s.programs[q].state

theorem StandAlike.refl (s : State) : StandAlike s s := ⟨SameSetup.refl s, fun _ => ⟨rfl, rfl⟩⟩

theorem StandAlike.trans (h : StandAlike s t) (h' : StandAlike t u) : StandAlike s u :=
  ⟨h.1.trans h'.1, fun q => ⟨(h'.2 q).1.trans (h.2 q).1, (h'.2 q).2.trans (h.2 q).2⟩⟩

theorem StandAlike.settled (h : StandAlike s t) (hs : Settled s q) : Settled t q :=
  settled_congr h.1 (h.2 q).1 (h.2 q).2 hs

theorem standAlike_of_same_programs (ht : ∀ n : TourNo, t.tours[n].state = s.tours[n].state)
    (hp : t.programs = s.programs) : StandAlike s t :=
  ⟨⟨ht, fun q => by rw [hp]⟩, fun q => by rw [hp]; exact ⟨rfl, rfl⟩⟩

theorem standAlike_modProgram {f : Program → Program}
    (hf : ∀ r, (f r).setup = r.setup ∧ (f r).wanted = r.wanted ∧ (f r).state = r.state) :
    StandAlike s (s.modProgram p f) := by
  refine ⟨sameSetup_modProgram fun r => (hf r).1, fun q => ?_⟩
  by_cases h : p = q
  · subst h; rw [modProgram_programs_self]; exact (hf _).2
  · rw [modProgram_programs_ne _ h]; exact ⟨rfl, rfl⟩

theorem standAlike_applyRemovalTo (i : Option SourceSlot) (s : State) : StandAlike s (applyRemovalTo i s) :=
  standAlike_of_same_programs (fun n => by rw [applyRemovalTo_eq]) (by rw [applyRemovalTo_eq])

/-- The choice of an overlay decides nothing else of a program. -/
theorem standAlike_chooseOverlay (p : ProgNo) (s : State) : StandAlike s (chooseOverlay p s) := by
  unfold chooseOverlay
  dsimp only
  split
  · exact StandAlike.refl s
  · split
    · exact StandAlike.refl s
    · refine StandAlike.trans ?_ (standAlike_applyRemovalTo _ _)
      exact standAlike_modProgram fun _ => ⟨rfl, rfl, rfl⟩

/-! ### A join (R80, R82) -/

/-- A join changes the set of the tour, and what follows. -/
theorem joinGallery_frame (n : TourNo) (g : PortNo) (s : State) :
    OnlyFollowers (s.modTour n fun r => { r with gallerySet := r.gallerySet ++ [g] }) (joinGallery n g s) := by
  generalize hw : (s.modTour n fun r => { r with gallerySet := r.gallerySet ++ [g] }) = w
  have hd : OnlyFollowers w (forEach (wantedPrograms w n) (fun p => demandArrival p g) w) :=
    forEach_keeps (P := OnlyFollowers w) _
      (fun p t ht => (demandKeeps_onlyFollowers w).demandArrival p g t ht) w rfl
  rw [joinGallery_eq, guideMoved, setChanged, hw]
  exact (mixKeeps_onlyFollowers w).notice _ _ _ _ _ ((mixKeeps_onlyFollowers w).chooseTourOverlays n _ hd)

theorem joinGallery_tours_self (n : TourNo) (g : PortNo) (s : State) : (joinGallery n g s).tours[n] =
    { s.tours[n] with gallerySet := s.tours[n].gallerySet ++ [g] } := by
  rw [(joinGallery_frame n g s).tours, modTour_tours_self]

theorem joinGallery_tours_ne {m : TourNo} (h : m ≠ n) (g : PortNo) (s : State) :
    (joinGallery n g s).tours[m] = s.tours[m] := by
  rw [(joinGallery_frame n g s).tours, modTour_tours_ne s h.symm]

theorem joinGallery_hearing (n : TourNo) (g : PortNo) (s : State) : (joinGallery n g s).hearing = s.hearing :=
  (joinGallery_frame n g s).hearing

theorem joinGallery_guideFrozen (n : TourNo) (g : PortNo) (s : State) :
    (joinGallery n g s).guideFrozen = s.guideFrozen := (joinGallery_frame n g s).guideFrozen

/-- A join leaves wanted and ACTIVE of every program. -/
theorem standAlike_joinGallery (n : TourNo) (g : PortNo) (s : State) : StandAlike s (joinGallery n g s) := by
  generalize hw : (s.modTour n fun r => { r with gallerySet := r.gallerySet ++ [g] }) = w
  have hstart : StandAlike s w := by
    refine standAlike_of_same_programs (fun m => ?_) (by rw [← hw]; rfl)
    by_cases h : n = m
    · subst h; rw [← hw, modTour_tours_self]
    · rw [← hw, modTour_tours_ne s h]
  have hd : StandAlike s (forEach (wantedPrograms w n) (fun p => demandArrival p g) w) := by
    refine forEach_keeps (P := StandAlike s) _ (fun p t ht => ht.trans ?_) w hstart
    have he := (demandKeeps_onlyDemands t).demandArrival p g t rfl
    exact standAlike_of_same_programs (fun m => by rw [he]) (by rw [he])
  have hc : StandAlike s (chooseTourOverlays n (forEach (wantedPrograms w n) (fun p => demandArrival p g) w)) :=
    forEach_keeps (P := StandAlike s) _ (fun p t ht => ht.trans (standAlike_chooseOverlay p t)) _ hd
  rw [joinGallery_eq, guideMoved, setChanged, hw]
  exact hc.trans (standAlike_of_same_programs (fun m => by simp) (by simp))

/-! ### The candidates (R72, R80) -/

/-- What joins keep is kept as a place is offered. -/
theorem offerOne_keeps (hj : ∀ r ∈ s.hearing, s.tours[n].guide = some r.slot → r.comparator = .inside →
    hasPlace s n = true → P s → P (joinGallery n r.port s)) (hs : P s) : P (offerOne n s) := by
  unfold offerOne
  split
  · next hc =>
    split
    · exact hs
    · next r hr =>
      have hm := FollowKeeps.bestOf_mem _ _ _ hr
      simp only [candidates, List.mem_filter, Bool.and_eq_true, beq_iff_eq] at hm
      exact hj r hm.1 hm.2.1.1 hm.2.1.2 hc.2 hs
  · exact hs

theorem offerPlace_keeps (hj : ∀ s, ∀ r ∈ s.hearing, s.tours[n].guide = some r.slot → r.comparator = .inside →
    hasPlace s n = true → P s → P (joinGallery n r.port s)) (s : State) (hs : P s) : P (offerPlace n s) :=
  offerOne_keeps (hj _) (offerOne_keeps (hj _) (offerOne_keeps (hj s) hs))

/-- One record joins before another (R80). -/
def JoinsFirst (x y : HearingRecord) : Prop :=
  StampFirst x.inStamp y.inStamp ∨ (x.inStamp = y.inStamp ∧ x.port < y.port)

theorem earlier_asymm {a b : Clock} (h : earlier a b = true) : earlier b a = false ∧ a ≠ b := by
  have ha := a.isLt
  have hb := b.isLt
  have hab : (b - a).toNat = (2 ^ 32 - a.toNat + b.toNat) % 2 ^ 32 := BitVec.toNat_sub b a
  have hba : (a - b).toNat = (2 ^ 32 - b.toNat + a.toNat) % 2 ^ 32 := BitVec.toNat_sub a b
  simp only [earlier, Bool.or_eq_true, Bool.and_eq_true, decide_eq_true_eq, beq_iff_eq] at h
  refine ⟨?_, ?_⟩
  · rw [Bool.eq_false_iff]
    simp only [earlier, Ne, Bool.or_eq_true, Bool.and_eq_true, decide_eq_true_eq, beq_iff_eq]
    omega
  · rintro rfl
    omega

theorem candidateBefore_of_joinsFirst {x y : HearingRecord} (h : JoinsFirst x y) :
    candidateBefore x y = true ∧ candidateBefore y x = false := by
  unfold candidateBefore
  rcases h with ⟨a, ha, b, hb, he⟩ | ⟨he, hp⟩
  · obtain ⟨hn, hne⟩ := earlier_asymm he
    simp [ha, hb, he, hn, hne, hne.symm]
  · have hnp : ¬ y.port < x.port := not_lt.mpr hp.le
    rw [he]
    cases y.inStamp <;> simp [hp, hnp]

/-- The member that precedes every other is the best. -/
theorem bestOf_eq_some {α : Type} {b : α → α → Bool} {x : α} {l : List α} (hx : x ∈ l)
    (h : ∀ y ∈ l, y ≠ x → b x y = true ∧ b y x = false) : bestOf b l = some x := by
  have hfold (ys : List α) : ∀ z, (z = x ∨ x ∈ ys) → (∀ y ∈ z :: ys, y ≠ x → b x y = true ∧ b y x = false) →
      ys.foldl (fun c y => if b y c then y else c) z = x := by
    induction ys with
    | nil => exact fun z hz _ => hz.resolve_right List.not_mem_nil
    | cons y ys ih =>
      intro z hz hall
      rw [List.foldl_cons]
      refine ih _ ?_ fun w hw => hall w ?_
      · by_cases hzx : z = x
        · subst hzx
          by_cases hyx : y = z
          · subst hyx; exact .inl (ite_self _)
          · rw [(hall y (by simp) hyx).2]; exact .inl rfl
        · rcases List.mem_cons.mp (hz.resolve_left hzx) with rfl | hm
          · rw [(hall z (by simp) hzx).1]; exact .inl rfl
          · exact .inr hm
      · rcases List.mem_cons.mp hw with rfl | hm
        · split <;> simp
        · simp [hm]
  cases l with
  | nil => exact absurd hx List.not_mem_nil
  | cons z ys => exact congrArg some (hfold ys z ((List.mem_cons.mp hx).imp Eq.symm id) h)

/-- The tour is OPEN with a guide that is not frozen, whose IN records are `cs` in the order of R80, and the first `k`
of them are the set. -/
structure SetFrom (n : TourNo) (i : SourceSlot) (cs : List HearingRecord) (k : Nat) (s : State) : Prop where
  isOpen : s.tours[n].state = .opened
  guide : s.tours[n].guide = some i
  notFrozen : s.guideFrozen[i] = false
  records : ∀ r, r ∈ cs ↔ r ∈ s.hearing ∧ r.slot = i ∧ r.comparator = .inside
  ordered : cs.Pairwise fun x y => x.port ≠ y.port ∧ JoinsFirst x y
  members : s.tours[n].gallerySet = (cs.take k).map (·.port)

/-- The candidates are the records that have not joined. -/
theorem SetFrom.mem_candidates {i : SourceSlot} {cs : List HearingRecord} {k : Nat} (h : SetFrom n i cs k s)
    (r : HearingRecord) : r ∈ candidates s n ↔ r ∈ cs.drop k := by
  have hsplit : cs.take k ++ cs.drop k = cs := List.take_append_drop k cs
  have hdiff : ∀ x ∈ cs.take k, ∀ y ∈ cs.drop k, x.port ≠ y.port := by
    have ho := h.ordered
    rw [← hsplit, List.pairwise_append] at ho
    exact fun x hx y hy => (ho.2.2 x hx y hy).1
  have hmem : r ∈ candidates s n ↔ r ∈ cs ∧ r.port ∉ (cs.take k).map (·.port) := by
    rw [h.records]
    simp only [candidates, List.mem_filter, Bool.and_eq_true, beq_iff_eq, h.guide, h.members, Bool.not_eq_true',
      List.contains_eq_mem, decide_eq_false_iff_not, Option.some.injEq, and_assoc, eq_comm (a := i)]
  rw [hmem]
  constructor
  · rintro ⟨hr, hn⟩
    rw [← hsplit, List.mem_append] at hr
    exact hr.resolve_left fun ht => hn (List.mem_map.mpr ⟨r, ht, rfl⟩)
  · refine fun hr => ⟨List.mem_of_mem_drop hr, fun hm => ?_⟩
    obtain ⟨x, hx, he⟩ := List.mem_map.mp hm
    exact hdiff x hx r hr he

/-- A place offered to a set of fewer than three: the next record joins, if there is one (R80). -/
theorem SetFrom.offerOne {i : SourceSlot} {cs : List HearingRecord} {k : Nat} (hk : k < 3)
    (h : SetFrom n i cs k s) : SetFrom n i cs (k + 1) (offerOne n s) := by
  have hplace : hasPlace s n = true := by
    have hlen : s.tours[n].gallerySet.length < 3 := by
      rw [h.members, List.length_map, List.length_take]; omega
    have hf := h.notFrozen
    simp only [hasPlace, Config.gallerySetSize, h.guide, hf, hlen, decide_true]
    rfl
  rw [Machine.offerOne, if_pos ⟨h.isOpen, hplace⟩]
  cases hd : cs.drop k with
  | nil =>
    have hnone : candidates s n = [] := List.eq_nil_iff_forall_not_mem.mpr fun r hr => by
      rw [h.mem_candidates, hd] at hr; exact List.not_mem_nil hr
    have hlen : cs.length ≤ k := List.drop_eq_nil_iff.mp hd
    have hmembers : s.tours[n].gallerySet = (cs.take (k + 1)).map (·.port) := by
      rw [h.members, List.take_of_length_le hlen, List.take_of_length_le (by omega)]
    rw [hnone]
    exact { h with members := hmembers }
  | cons r rest =>
    have hord : ∀ y ∈ rest, JoinsFirst r y := by
      have ho := h.ordered.drop (i := k)
      rw [hd, List.pairwise_cons] at ho
      exact fun y hy => (ho.1 y hy).2
    have hbest : bestOf candidateBefore (candidates s n) = some r := by
      refine bestOf_eq_some ((h.mem_candidates r).mpr (hd ▸ List.mem_cons_self)) fun y hy hne => ?_
      rw [h.mem_candidates, hd] at hy
      exact candidateBefore_of_joinsFirst (hord y ((List.mem_cons.mp hy).resolve_left hne))
    have htours := joinGallery_tours_self n r.port s
    have htake : cs.take (k + 1) = cs.take k ++ [r] := by
      have hr : cs[k]? = some r := by rw [← List.head?_drop, hd]; rfl
      rw [List.take_add_one, hr]; rfl
    rw [hbest]
    exact
      { isOpen := by rw [htours]; exact h.isOpen
        guide := by rw [htours]; exact h.guide
        notFrozen := by rw [joinGallery_guideFrozen]; exact h.notFrozen
        records := by rw [joinGallery_hearing]; exact h.records
        ordered := h.ordered
        members := by rw [htours, htake, List.map_append, h.members]; rfl }

/-- A place offered to an empty set: the first three records join (R83). -/
theorem SetFrom.offerPlace {i : SourceSlot} {cs : List HearingRecord} (h : SetFrom n i cs 0 s) :
    (offerPlace n s).tours[n].gallerySet = (cs.take 3).map (·.port) :=
  (((h.offerOne (by omega)).offerOne (by omega)).offerOne (by omega)).members

theorem offerOne_of_frozen {i : SourceSlot} (hg : s.tours[n].guide = some i) (hf : s.guideFrozen[i] = true) :
    offerOne n s = s := by
  rw [Machine.offerOne, if_neg]
  rintro ⟨-, hp⟩
  simp only [hasPlace, hg, hf, Bool.not_true, Bool.and_false, Bool.false_eq_true] at hp

theorem offerPlace_of_frozen {i : SourceSlot} (hg : s.tours[n].guide = some i) (hf : s.guideFrozen[i] = true) :
    offerPlace n s = s := by
  rw [Machine.offerPlace, offerOne_of_frozen hg hf, offerOne_of_frozen hg hf, offerOne_of_frozen hg hf]

end Sys2Proof.Machine
end

section
/-! OPEN_TOUR served: what it is refused for (R21, R151), and the tour it opens (R21, R83). -/

namespace Sys2Proof.Machine

open Laws

variable {s t u : State} {n : TourNo} {i : SourceSlot} {p : PortNo} {rest : List Request} {tag : BitVec 16}

/-! ### A place offered, as a whole -/

/-- Only the set of the tour and what follows joins differ. -/
def OnlySetOf (n : TourNo) (s t : State) : Prop :=
  (∀ m : TourNo, m ≠ n → t.tours[m] = s.tours[m]) ∧
    t.tours[n] = { s.tours[n] with gallerySet := t.tours[n].gallerySet } ∧ t = { s with
      tours := t.tours, programs := t.programs, sources := t.sources, galleries := t.galleries, ports := t.ports
      notices := t.notices, noticeOverflow := t.noticeOverflow, log := t.log }

theorem onlySetOf_joinGallery (g : PortNo) (h : OnlySetOf n s t) : OnlySetOf n s (joinGallery n g t) := by
  obtain ⟨hne, hself, hframe⟩ := h
  refine ⟨fun m hm => (joinGallery_tours_ne hm g t).trans (hne m hm), ?_, ?_⟩
  · rw [joinGallery_tours_self, hself]
  · rw [joinGallery_frame, hframe]
    rfl

theorem onlySetOf_offerPlace (n : TourNo) (s : State) : OnlySetOf n s (offerPlace n s) :=
  offerPlace_keeps (P := OnlySetOf n s) (fun _ r _ _ _ _ hs => onlySetOf_joinGallery r.port hs) s
    ⟨fun _ _ => rfl, rfl, rfl⟩

theorem standAlike_offerPlace (n : TourNo) (s : State) : StandAlike s (offerPlace n s) :=
  offerPlace_keeps (P := StandAlike s) (fun t r _ _ _ _ hs => hs.trans (standAlike_joinGallery n r.port t)) s
    (StandAlike.refl s)

/-- A place offered fills the set to three at most (R80). -/
theorem length_offerPlace (hs : s.tours[n].gallerySet.length ≤ 3) :
    (offerPlace n s).tours[n].gallerySet.length ≤ 3 := by
  refine offerPlace_keeps (P := fun t => t.tours[n].gallerySet.length ≤ 3) (fun t r _ _ _ hp _ => ?_) s hs
  have hroom : t.tours[n].gallerySet.length < 3 := of_decide_eq_true (Bool.and_eq_true_iff.mp hp).1
  rw [joinGallery_tours_self]
  simp only [List.length_append, List.length_singleton]
  omega

/-- The members of an empty set that was offered places are galleries where the guide is IN (R80). -/
theorem mem_offerPlace (hg : s.tours[n].guide = some i) (he : s.tours[n].gallerySet = []) :
    ∀ g ∈ (offerPlace n s).tours[n].gallerySet,
      ∃ r ∈ s.hearing, r.slot = i ∧ r.port = g ∧ r.comparator = .inside := by
  have hnone : ∀ g ∈ s.tours[n].gallerySet,
      ∃ r ∈ s.hearing, r.slot = i ∧ r.port = g ∧ r.comparator = .inside := by
    rw [he]; exact fun _ h => absurd h List.not_mem_nil
  refine (offerPlace_keeps (n := n) (P := fun t => t.hearing = s.hearing ∧ t.tours[n].guide = some i ∧
    ∀ g ∈ t.tours[n].gallerySet, ∃ r ∈ s.hearing, r.slot = i ∧ r.port = g ∧ r.comparator = .inside)
    ?_ s ⟨rfl, hg, hnone⟩).2.2
  rintro t r hr hslot hin - ⟨hh, hgt, hm⟩
  rw [joinGallery_hearing, joinGallery_tours_self]
  refine ⟨hh, hgt, fun g hg => ?_⟩
  rcases List.mem_append.mp hg with hg | hg
  · exact hm g hg
  · rw [hgt, Option.some.injEq] at hslot
    exact ⟨r, hh ▸ hr, hslot.symm, (List.mem_singleton.mp hg).symm, hin⟩

/-! ### The operands read back -/

/-- The operands of OPEN_TOUR. -/
def openOperands (x y z v : Nat) : List Byte := put8 x ++ put8 y ++ put8 z ++ put8 v

theorem byteAt_openOperands {x y z v : Nat} (hx : x < 256) (hy : y < 256) (hz : z < 256) (hv : v < 256) :
    byteAt (openOperands x y z v) 0 = x ∧ byteAt (openOperands x y z v) 1 = y ∧
      byteAt (openOperands x y z v) 2 = z ∧ byteAt (openOperands x y z v) 3 = v :=
  ⟨byteAt_put8 x (put8 y ++ put8 z ++ put8 v) hx, byteAt_put8 y (put8 z ++ put8 v) hy,
    byteAt_put8 z (put8 v) hz, byteAt_put8 v [] hv⟩

theorem formOk_openOperands {x y z v : Nat} (hx : x < 256) (hy : y < 256) (hz : z < 256) (hv : v < 256) :
    formOk 4 (some 3) (requestPayload tag 4 (openOperands x y z v)) = (v == 0) := by
  simp only [formOk, headerOk_requestPayload, operandsOf_requestPayload, (byteAt_openOperands hx hy hz hv).2.2.2]
  rfl

/-- What serving OPEN_TOUR with these operands gives, once the reserved byte is zero (R151). -/
theorem serveOpen_of_zero {x y z : Nat} (hx : x < 256) (hy : y < 256) (hz : z < 256) :
    serveOpen p (requestPayload tag 4 (openOperands x y z 0)) s =
      match toFin 24 x, toFin 64 y, toFin 4 z with
      | none, _, _ => refuse .noSuch s
      | some t, some i, some priority =>
        if openRefused s t i then refuse .refusedState s
        else done (entryResult (openTour t i priority s) .tour t.val) (openTour t i priority s)
      | some _, _, _ => refuse .range s := by
  obtain ⟨h0, h1, h2, -⟩ := byteAt_openOperands hx hy hz (show 0 < 256 by decide)
  simp only [serveOpen, formOk_openOperands hx hy hz (show 0 < 256 by decide), operandsOf_requestPayload, h0, h1, h2]
  rfl

/-- A request refused is answered alone. -/
theorem exec_openTour_refused {x y z v : Nat} {status : Status}
    (hs : Serving s p (requestPayload tag 4 (openOperands x y z v)) rest)
    (h : serveOpen p (requestPayload tag 4 (openOperands x y z v)) { s with requests := rest } =
      refuse status { s with requests := rest }) :
    AnsweredAlone .openTour s p rest (.response tag 4 status []) := by
  refine (serveHead_of_serving hs rfl).trans ?_
  rw [h]
  rfl

/-- What R21 refuses by the state of the hub. -/
theorem openRefused_iff : openRefused s n i = true ↔
    s.tours[n].state = .opened ∨ (∃ l : LangSlot, 0 < s.programs[progOf n l].issued) ∨
      s.sources[i].state = .unused ∨ s.sources[i].role ≠ .guide ∨
      ∃ u : TourNo, u ≠ n ∧ s.tours[u].state = .opened ∧ s.tours[u].guide = some i := by
  simp only [openRefused, progsOf, Bool.or_eq_true, Bool.and_eq_true, beq_iff_eq, bne_iff_ne, List.any_eq_true,
    decide_eq_true_eq, List.mem_map, mem_fins, true_and, exists_exists_eq_and, or_assoc, and_assoc]

/-! ### The tour opened -/

/-- The record of a tour as it is opened (R21). -/
def openedTour (s : State) (n : TourNo) (i : SourceSlot) (priority : Fin 4) : Tour :=
  { state := .opened, guide := some i, priority := priority, gallerySet := []
    guideFrozen := decide (s.sources[i].state = .lost), generation := s.tours[n].generation + 1 }

/-- The hub with the tour OPEN, before its programs are derived. -/
def tourOpened (n : TourNo) (i : SourceSlot) (priority : Fin 4) (s : State) : State :=
  s.modTour n fun _ => openedTour s n i priority

theorem openTour_eq (n : TourNo) (i : SourceSlot) (priority : Fin 4) (s : State) : openTour n i priority s =
    offerPlace n (forEach (progsOf n ++ targetsOf s (progsOf n)) derive (tourOpened n i priority s)) := by
  have htargets : targetsOf (tourOpened n i priority s) (progsOf n) = targetsOf s (progsOf n) := rfl
  rw [← htargets, ← rederive]
  rfl

theorem serveOpen_taken {priority : Fin 4} (hr : openRefused s n i = false) :
    serveOpen p (requestPayload tag 4 (openOperands n.val i.val priority.val 0)) s =
      done (entryResult (openTour n i priority s) .tour n.val) (openTour n i priority s) := by
  have hn := n.isLt
  have hi := i.isLt
  have hp := priority.isLt
  rw [serveOpen_of_zero (by omega) (by omega) (by omega)]
  simp only [toFin_val, hr]
  exact if_neg Bool.false_ne_true

/-- OPEN_TOUR that is not refused opens the tour, and answers with its entry. -/
theorem exec_openTour_taken {priority : Fin 4}
    (hs : Serving s p (requestPayload tag 4 (openOperands n.val i.val priority.val 0)) rest)
    (hr : openRefused s n i = false) (hu : u = openTour n i priority { s with requests := rest }) :
    exec .openTour s = .next (respond p (.response tag 4 .ok (entryResult u .tour n.val)) u) := by
  have hr' : openRefused { s with requests := rest } n i = false := hr
  have hserve := serveOpen_taken (p := p) (tag := tag) (priority := priority) hr'
  rw [← hu] at hserve
  refine (serveHead_of_serving hs rfl).trans ?_
  rw [hserve]
  rfl

/-- Settles O25: the tour is opened, its programs are derived one after another, and `SetFrom` follows the joins; each
refusal by the operand or the state that brings it about. -/
theorem openTourOpensTheTour : Obligations.OpenTourOpensTheTour := by
  unfold Obligations.OpenTourOpensTheTour
  refine ⟨fun s p rest tag n i priority hs hclosed hissued hused hguide hother => ?_,
    fun s p rest tag x y z v hx hy hz hv hs => ?_⟩
  · intro opened w own targets
    have hr : openRefused s n i = false := by
      have hnone : ¬ ∃ l : LangSlot, 0 < s.programs[progOf n l].issued := by
        rintro ⟨l, hl⟩
        exact absurd (hissued l) hl.ne'
      rw [Bool.eq_false_iff, Ne, openRefused_iff, hclosed]
      rintro (h | h | h | h | ⟨m, hm, ho, hg⟩)
      · cases h
      · exact hnone h
      · exact hused h
      · exact h hguide
      · exact hother m hm ho hg
    obtain ⟨u, hu⟩ : ∃ u, u = openTour n i priority { s with requests := rest } := ⟨_, rfl⟩
    have hexec := exec_openTour_taken hs hr hu
    have hown : own = progsOf n := by rw [progsOf, fins_eq_finRange]
    have htargets : targets = targetsOf s (progsOf n) := by rw [← hown]; rfl
    rw [hown, htargets]
    have hw : w = tourOpened n i priority { s with requests := rest } := rfl
    rw [openTour_eq, ← hw] at hu
    change u = offerPlace n (forEach (progsOf n ++ targetsOf s (progsOf n)) derive w) at hu
    have hwself : w.tours[n] = opened := modTour_tours_self s n fun _ => opened
    have hwne (m : TourNo) (hm : m ≠ n) : w.tours[m] = s.tours[m] := modTour_tours_ne s hm.symm fun _ => opened
    have hfollow := onlyFollowers_forEach_derive (progsOf n ++ targetsOf s (progsOf n)) w
    have hsettled (q : ProgNo) (hq : q ∈ progsOf n ++ targetsOf s (progsOf n)) :=
      settled_forEach_derive _ w (.inl hq)
    have hgrown : Grown w (forEach (progsOf n ++ targetsOf s (progsOf n)) derive w) :=
      forEach_keeps (P := Grown w) _ (fun q t ht => ht.trans (grown_derive q t)) w (Grown.refl w)
    refine ⟨u, hexec, hu, ?_⟩
    generalize forEach (progsOf n ++ targetsOf s (progsOf n)) derive w = x at hu hfollow hsettled hgrown
    have hxself : x.tours[n] = opened := by rw [hfollow.tours]; exact hwself
    have hxg : x.tours[n].guide = some i := by rw [hxself]
    have hxe : x.tours[n].gallerySet = [] := by rw [hxself]
    have hxh : x.hearing = s.hearing := hfollow.hearing
    have hxf : x.guideFrozen = s.guideFrozen := hfollow.guideFrozen
    obtain ⟨hne, hself, hframe⟩ := onlySetOf_offerPlace n x
    obtain ⟨htrim, hports, hnotices⟩ := hgrown.trans ((followKeeps_grown x).offerPlace n x (Grown.refl x))
    subst hu
    refine ⟨fun q hq => (standAlike_offerPlace n x).settled (hsettled q hq), fun hf => ?_, fun cs hf hm ho => ?_, ?_,
      length_offerPlace (by rw [hxe]; exact Nat.zero_le 3), ?_, fun m hm => ?_, htrim, hports, hnotices, ?_⟩
    · rw [offerPlace_of_frozen hxg (by rw [hxf]; exact hf), hxe]
    · exact SetFrom.offerPlace
        { isOpen := by rw [hxself]
          guide := hxg
          notFrozen := by rw [hxf]; exact hf
          records := by rw [hxh]; exact hm
          ordered := ho
          members := hxe }
    · rw [hself, hxself]
    · rw [← hxh]
      exact mem_offerPlace hxg hxe
    · rw [hne m hm, hfollow.tours]
      exact hwne m hm
    · rw [hframe, hfollow]
  · have hanswer {status : Status} (h : serveOpen p (requestPayload tag 4 (openOperands x y z v))
        { s with requests := rest } = refuse status { s with requests := rest }) := exec_openTour_refused hs h
    refine ⟨fun h => hanswer ?_, fun h h' => hanswer ?_, fun h h' h'' => hanswer ?_,
      fun n i h hn hi h' hst => hanswer ?_⟩
    · have hf : (v == 0) = false := by simpa using h
      simp only [serveOpen, formOk_openOperands hx hy hz hv, hf]
      rfl
    · subst h
      rw [serveOpen_of_zero hx hy hz]
      have hnone : toFin 24 x = none := dif_neg (by omega)
      simp only [hnone]
    · subst h
      rw [serveOpen_of_zero hx hy hz]
      have hsome : toFin 24 x = some ⟨x, by omega⟩ := dif_pos (by omega)
      rcases h'' with hy' | hz'
      · have hnone : toFin 64 y = none := dif_neg (by omega)
        simp only [hsome, hnone]
      · have hnone : toFin 4 z = none := dif_neg (by omega)
        cases htf : toFin 64 y <;> simp only [hsome, hnone]
    · subst h hn hi
      have hz' : toFin 4 z = some ⟨z, by omega⟩ := dif_pos (by omega)
      have hrefused : openRefused { s with requests := rest } n i = true := openRefused_iff.mpr hst
      rw [serveOpen_of_zero hx hy hz]
      simp only [toFin_val, hz', hrefused, if_true]

end Sys2Proof.Machine
end

section
/-! WRITE_ENTRY on TOUR and PROGRAM (R23, R29, R32, R34, R96): how a write is served, and the wait lists in the order
of new ranks. -/

namespace Sys2Proof.Machine

open Laws

variable {s t u : State} {p : PortNo} {rest : List Request} {tag : BitVec 16}

/-! ### A write served (R151, R153) -/

/-- The operands of a write of two fields are read as they were laid out (Table 11-8). -/
theorem parseWrite_writeTwo {table index f v f' v' : Nat} (ht : table < 256) (hi : index < 65536) (hf : f < 256)
    (hv : v < 4294967296) (hf' : f' < 256) (hv' : v' < 4294967296) (hne : f ≠ f') :
    parseWrite (requestPayload tag 2 (writeTwo table index f v f' v')) =
      some ⟨table, index, [(f, v), (f', v')]⟩ := by
  have hlen : (writeTwo table index f v f' v').length = 15 := rfl
  have h0 : byteAt (writeTwo table index f v f' v') 0 = table := byteAt_put8 table _ ht
  have h1 : byteAt (writeTwo table index f v f' v') 1 = 0 := rfl
  have h2 : wordAt (writeTwo table index f v f' v') 2 = index :=
    wordAt_put16 index (put8 2 ++ (put8 f ++ put32 v) ++ (put8 f' ++ put32 v')) hi
  have h4 : byteAt (writeTwo table index f v f' v') 4 = 2 := rfl
  have hitems : parseItems 2 ((writeTwo table index f v f' v').drop 5) = [(f, v), (f', v')] := by
    have hb : byteAt ((writeTwo table index f v f' v').drop 5) 0 = f :=
      byteAt_put8 f (put32 v ++ (put8 f' ++ put32 v')) hf
    have hl : longAt ((writeTwo table index f v f' v').drop 5) 1 = v :=
      longAt_put32 v (put8 f' ++ put32 v') hv
    have hb' : byteAt (((writeTwo table index f v f' v').drop 5).drop 5) 0 = f' := byteAt_put8 f' (put32 v') hf'
    have hl' : longAt (((writeTwo table index f v f' v').drop 5).drop 5) 1 = v' := longAt_put32 v' [] hv'
    simp only [parseItems, hb, hl, hb', hl']
  have hok : itemsOk [(f, v), (f', v')] = true := by simp [itemsOk, hne]
  simp only [parseWrite, headerOk_requestPayload, operandsOf_requestPayload, hlen, h0, h1, h2, h4, hitems, hok]
  rfl

/-- A write served without effect is refused. -/
theorem writeRefused_of_serveWrite {o : List Byte} {status : Status}
    (hs : Serving s p (requestPayload tag 2 o) rest)
    (h : serveWrite p (requestPayload tag 2 o) { s with requests := rest } =
      refuse status { s with requests := rest }) : WriteRefused s p rest tag status := by
  refine (serveHead_of_serving hs rfl).trans ?_
  rw [h]
  rfl

theorem writeTaken_of_serveWrite {o : List Byte} {table : Table} {index : Nat}
    (hs : Serving s p (requestPayload tag 2 o) rest)
    (h : serveWrite p (requestPayload tag 2 o) { s with requests := rest } = done (entryResult u table index) u) :
    WriteTaken s u p tag table index := by
  refine (serveHead_of_serving hs rfl).trans ?_
  rw [h]
  rfl

section
variable {o : List Byte} {table : Table} {index : Nat} {items : List (Nat × Nat)}

/-- A write whose fields and index the table has: the three tests in turn, and then its effect (R151). -/
theorem serveWrite_of_parsed (hparse : parseWrite (requestPayload tag 2 o) = some ⟨table.code, index, items⟩)
    (hknown : (items.all fun x => table.hasField x.1) = true) (hi : index < table.entries) :
    serveWrite p (requestPayload tag 2 o) s =
      if !items.all fun x => table.isWritable x.1 then refuse .readOnly s
      else if writeRange s table index items then refuse .range s
      else if writeRefused s table index items then refuse .refusedState s
      else takeWrite p table ⟨table.code, index, items⟩ s := by
  have hknown' : fieldsKnown table ⟨table.code, index, items⟩ = true := hknown
  simp only [serveWrite, hparse, writeEntry, tableOf_code, hknown', Nat.not_le.mpr hi, writeFailure]
  by_cases hw : (items.all fun x => table.isWritable x.1) = true
  · simp only [hw]
    by_cases hr : writeRange s table index items = true
    · simp only [hr]; rfl
    · simp only [hr]; rfl
  · simp only [hw]; rfl

/-- A write on another table than PORT takes effect at once (R153). -/
theorem takeWrite_of_not_port (h : table ≠ .port) (q : WriteRequest) : takeWrite p table q s =
    done (entryResult (applyWrite table q.index q.items s) table q.index) (applyWrite table q.index q.items s) := by
  have hown : ownRoleChange p table q s = none := if_neg fun hc => h hc.1
  simp only [takeWrite, hown]

end

/-! ### Carry rank (R95) -/

/-- The order of Table 6-4, key by key. -/
theorem ranksAbove_iff {p q : ProgNo} : ranksAbove s p q = true ↔
    priorityOf s q < priorityOf s p ∨ (priorityOf s p = priorityOf s q ∧
      ((langOf p).val = 0 ∧ (langOf q).val ≠ 0 ∨ (((langOf p).val = 0 ↔ (langOf q).val = 0) ∧
        (receiverSum s q < receiverSum s p ∨ (receiverSum s p = receiverSum s q ∧ p.val < q.val))))) := by
  have hl (l : LangSlot) : l = 0 ↔ l.val = 0 := Fin.ext_iff
  unfold ranksAbove
  simp only [hl]
  split
  · simp only [decide_eq_true_eq]; omega
  · split
    · next h1 h2 =>
      have h2' : ¬ ((langOf p).val = 0 ↔ (langOf q).val = 0) := fun h => h2 (propext h)
      simp only [decide_eq_true_eq]; omega
    · next h1 h2 =>
      have h2' : (langOf p).val = 0 ↔ (langOf q).val = 0 := iff_of_eq (not_not.mp h2)
      split
      · simp only [decide_eq_true_eq]; omega
      · simp only [decide_eq_true_eq]; omega

theorem ranksAbove_trans {p q r : ProgNo} (h : ranksAbove s p q = true) (h' : ranksAbove s q r = true) :
    ranksAbove s p r = true := by
  rw [ranksAbove_iff] at h h' ⊢
  omega

theorem ranksAbove_irrefl (p : ProgNo) : ¬ ranksAbove s p p = true := by
  rw [ranksAbove_iff]
  omega

theorem ranksAbove_total {p q : ProgNo} (h : p ≠ q) : ranksAbove s p q = true ∨ ranksAbove s q p = true := by
  have hv : p.val ≠ q.val := fun e => h (Fin.ext e)
  rw [ranksAbove_iff, ranksAbove_iff]
  omega

/-! ### Entries moved on a wait list (R96) -/

theorem insertBefore_perm {α : Type} (b : α → α → Bool) (x : α) (l : List α) :
    (insertBefore b x l).Perm (x :: l) := by
  induction l with
  | nil => exact List.Perm.refl _
  | cons y ys ih =>
    unfold insertBefore
    split
    · exact List.Perm.refl _
    · exact (ih.cons y).trans (List.Perm.swap x y ys)

/-- A member put into a list in order, at the place of a transitive relation that compares it with each. -/
theorem insertBefore_pairwise {α : Type} {b : α → α → Bool} {x : α} {l : List α}
    (htrans : ∀ y z w, b y z = true → b z w = true → b y w = true)
    (htotal : ∀ y ∈ l, b x y = true ∨ b y x = true) (hl : l.Pairwise fun y z => b y z = true) :
    (insertBefore b x l).Pairwise fun y z => b y z = true := by
  induction l with
  | nil => exact List.pairwise_singleton _ _
  | cons y ys ih =>
    obtain ⟨hy, hys⟩ := List.pairwise_cons.mp hl
    unfold insertBefore
    split
    · next hxy =>
      refine List.pairwise_cons.mpr ⟨fun z hz => ?_, hl⟩
      rcases List.mem_cons.mp hz with rfl | hz
      · exact hxy
      · exact htrans _ _ _ hxy (hy z hz)
    · next hxy =>
      refine List.pairwise_cons.mpr ⟨fun z hz => ?_, ih (fun z hz => htotal z (List.mem_cons_of_mem _ hz)) hys⟩
      rcases List.mem_cons.mp ((insertBefore_perm b x ys).mem_iff.mp hz) with rfl | hz
      · exact (htotal y List.mem_cons_self).resolve_left hxy
      · exact hy z hz

/-- One entry ranks above another. -/
def waitsAbove (s : State) (x y : Waiter) : Bool := ranksAbove s x.program y.program

/-- Entries placed one after another into a list. -/
def placedAll (s : State) (ws l : List Waiter) : List Waiter :=
  ws.foldl (fun l w => insertBefore (waitsAbove s) w l) l

theorem placedAll_perm (s : State) (ws l : List Waiter) : (placedAll s ws l).Perm (ws ++ l) := by
  induction ws generalizing l with
  | nil => exact List.Perm.refl _
  | cons w ws ih =>
    exact (ih _).trans (((insertBefore_perm _ w l).append_left ws).trans List.perm_middle)

/-- Entries of different programs placed into a list in order leave it so. -/
theorem placedAll_pairwise {ws l : List Waiter} (hd : ((ws ++ l).map (·.program)).Nodup)
    (hl : l.Pairwise fun x y => ranksAbove s x.program y.program = true) :
    (placedAll s ws l).Pairwise fun x y => ranksAbove s x.program y.program = true := by
  induction ws generalizing l with
  | nil => exact hl
  | cons w ws ih =>
    have hperm : (ws ++ insertBefore (waitsAbove s) w l).Perm (w :: (ws ++ l)) :=
      ((insertBefore_perm _ w l).append_left ws).trans List.perm_middle
    refine ih ((hperm.map _).nodup_iff.mpr hd) (insertBefore_pairwise (b := waitsAbove s)
      (fun _ _ _ => ranksAbove_trans) (fun y hy => ranksAbove_total ?_) hl)
    rw [List.cons_append, List.map_cons, List.nodup_cons] at hd
    intro he
    exact hd.1 (List.mem_map.mpr ⟨y, List.mem_append_right _ hy, he.symm⟩)

theorem movedBy_eq (s : State) (ps : List ProgNo) (l : List Waiter) : movedBy s ps l =
    placedAll s (l.filter fun w => ps.contains w.program) (l.filter fun w => !ps.contains w.program) := rfl

theorem movedBy_perm (s : State) (ps : List ProgNo) (l : List Waiter) : (movedBy s ps l).Perm l :=
  (placedAll_perm s _ _).trans (List.filter_append_perm _ l)

/-- A list in the former order is in the new one, once the entries whose rank changed moved (R96). -/
theorem movedBy_pairwise {ps : List ProgNo} {l : List Waiter}
    (hl : l.Pairwise fun x y => ranksAbove s x.program y.program = true)
    (hkept : ∀ x ∈ l, ∀ y ∈ l, x.program ∉ ps → y.program ∉ ps →
      ranksAbove t x.program y.program = ranksAbove s x.program y.program) :
    (movedBy t ps l).Pairwise fun x y => ranksAbove t x.program y.program = true := by
  have hdiff (x y : Waiter) (h : ranksAbove s x.program y.program = true) : x.program ≠ y.program := by
    intro he
    rw [he] at h
    exact ranksAbove_irrefl _ h
  have hnodup : (l.map (·.program)).Nodup := List.pairwise_map.mpr (hl.imp (hdiff _ _))
  refine placedAll_pairwise (((List.filter_append_perm _ l).map _).nodup_iff.mpr hnodup) ?_
  refine (hl.sublist List.filter_sublist).imp_of_mem fun hx hy h => ?_
  simp only [List.mem_filter, Bool.not_eq_true', List.contains_eq_mem, decide_eq_false_iff_not] at hx hy
  rw [hkept _ hx.1 _ hy.1 hx.2 hy.2]
  exact h

/-- Galleries changed one by one, each by the same function of itself. -/
theorem forEach_modGallery (f : Gallery → Gallery) {gs : List PortNo} (hn : gs.Nodup) (s : State) :
    let t := forEach gs (fun g s => s.modGallery g f) s
    t = { s with galleries := t.galleries } ∧
      ∀ g : PortNo, t.galleries[g] = if g ∈ gs then f s.galleries[g] else s.galleries[g] := by
  induction gs generalizing s with
  | nil => exact ⟨rfl, fun g => (if_neg List.not_mem_nil).symm⟩
  | cons h gs ih =>
    obtain ⟨hnot, hn⟩ := List.nodup_cons.mp hn
    obtain ⟨he, ht⟩ := ih hn (s.modGallery h f)
    refine ⟨he, fun g => (ht g).trans ?_⟩
    by_cases hg : h = g
    · subst hg
      rw [if_neg hnot, if_pos List.mem_cons_self, modGallery_galleries_self]
    · rw [modGallery_galleries_ne _ hg]
      simp only [List.mem_cons, Ne.symm hg, false_or]

/-- New ranks move entries on the wait lists, by the hub as it stood (R96). -/
theorem rerank_eq (ps : List ProgNo) (s : State) : rerank ps s = { s with galleries := (rerank ps s).galleries } ∧
    ∀ g : PortNo, (rerank ps s).galleries[g] =
      { s.galleries[g] with waitList := movedBy s ps s.galleries[g].waitList } := by
  have h : rerank ps s = forEach (fins 12)
      (fun g t => t.modGallery g fun e => { e with waitList := movedBy s ps e.waitList }) s := by
    have hstep (gs : List PortNo) : ∀ t : State, t = { s with galleries := t.galleries } →
        forEach gs (fun g t => t.modGallery g fun e => { e with waitList := movedBy t ps e.waitList }) t =
          forEach gs (fun g t => t.modGallery g fun e => { e with waitList := movedBy s ps e.waitList }) t := by
      induction gs with
      | nil => exact fun _ _ => rfl
      | cons g gs ih =>
        intro t ht
        have hm : movedBy t ps = movedBy s ps := by rw [ht]; rfl
        rw [forEach_cons, forEach_cons, hm]
        exact ih _ (by rw [ht]; rfl)
    exact hstep (fins 12) s rfl
  have hn : (fins 12).Nodup := by rw [fins_eq_finRange]; exact List.nodup_finRange 12
  obtain ⟨he, hg⟩ := forEach_modGallery (fun e => { e with waitList := movedBy s ps e.waitList }) hn s
  rw [← h] at he hg
  exact ⟨he, fun g => (hg g).trans (if_pos (mem_fins g))⟩

end Sys2Proof.Machine
end

section
/-! WRITE_ENTRY on TOUR: the class (R23, R29). WRITE_ENTRY on PROGRAM (R26, R32, R34). -/

namespace Sys2Proof.Machine

open Laws

variable {s t u : State} {a : PortNo} {rest : List Request} {tag : BitVec 16} {n : TourNo} {p q : ProgNo} {v : Nat}

/-! ### TOUR (R23, R29, R96) -/

/-- The hub with the class of a tour written, before the wait lists follow. -/
def classWritten (n : TourNo) (v : Nat) (s : State) : State :=
  s.modTour n fun r => { r with priority := Fin.ofNat 4 v, generation := r.generation + 1 }

theorem writeTour_eq (n : TourNo) (v : Nat) (s : State) :
    writeTour n [(3, v)] s = rerank (wantedPrograms s n) (classWritten n v s) := rfl

/-- The new class concerns the ranks of the tour's programs only. -/
theorem ranksAbove_classWritten {x y : ProgNo} (hx : tourOf x ≠ n) (hy : tourOf y ≠ n) :
    ranksAbove (classWritten n v s) x y = ranksAbove s x y := by
  have hp (z : ProgNo) (hz : tourOf z ≠ n) : priorityOf (classWritten n v s) z = priorityOf s z := by
    rw [priorityOf, classWritten, modTour_tours_ne s hz.symm]
    rfl
  have hr (z : ProgNo) : receiverSum (classWritten n v s) z = receiverSum s z := rfl
  simp only [ranksAbove, hp x hx, hp y hy, hr]

theorem mem_wantedPrograms (hp : tourOf p = n) (hw : s.programs[p].wanted = true) : p ∈ wantedPrograms s n :=
  List.mem_filter.mpr ⟨hp ▸ mem_progsOf p, hw⟩

/-- After a write of the class: the wait lists hold the same entries, in the order of the new ranks (R23, R96). -/
theorem writeTour_spec (n : TourNo) (v : Nat) (s : State) :
    writeTour n [(3, v)] s = { s with
      galleries := (writeTour n [(3, v)] s).galleries
      tours := s.tours.set n { s.tours[n] with
        priority := Fin.ofNat 4 v, generation := s.tours[n].generation + 1 } } ∧
    ∀ g : PortNo, (writeTour n [(3, v)] s).galleries[g] = { s.galleries[g] with
        waitList := (writeTour n [(3, v)] s).galleries[g].waitList } ∧
      (writeTour n [(3, v)] s).galleries[g].waitList.Perm s.galleries[g].waitList ∧
      (s.galleries[g].waitList.Pairwise (fun x y => ranksAbove s x.program y.program = true) →
        (∀ w ∈ s.galleries[g].waitList, tourOf w.program = n → s.programs[w.program].wanted = true) →
        (writeTour n [(3, v)] s).galleries[g].waitList.Pairwise fun x y =>
          ranksAbove (writeTour n [(3, v)] s) x.program y.program = true) := by
  obtain ⟨hframe, hg⟩ := rerank_eq (wantedPrograms s n) (classWritten n v s)
  rw [← writeTour_eq] at hframe hg
  generalize writeTour n [(3, v)] s = u at hframe hg ⊢
  refine ⟨hframe, fun g => ⟨by rw [hg]; rfl, ?_, fun hsorted hwanted => ?_⟩⟩
  · rw [hg]
    exact movedBy_perm _ _ _
  · have hranks (x y : ProgNo) :
        ranksAbove u x y = ranksAbove (classWritten n v s) x y := by
      rw [hframe]; rfl
    have hkept (x : Waiter) (hx : x ∈ s.galleries[g].waitList) (hn : x.program ∉ wantedPrograms s n) :
        tourOf x.program ≠ n := fun ht => hn (mem_wantedPrograms ht (hwanted x hx ht))
    simp only [hranks]
    rw [hg]
    exact movedBy_pairwise hsorted fun x hx y hy hnx hny =>
      ranksAbove_classWritten (hkept x hx hnx) (hkept y hy hny)

/-- A write of one field of TOUR, as it is served. -/
theorem serveWrite_tour {f : Nat} (hf : 1 ≤ f ∧ f ≤ 6) (hv : v < 4294967296) :
    serveWrite a (requestPayload tag 2 (writeOne 2 n.val f v)) s =
      if f ≠ 3 then refuse .readOnly s
      else if 3 < v then refuse .range s
      else done (entryResult (writeTour n [(3, v)] s) .tour n.val) (writeTour n [(3, v)] s) := by
  have hn := n.isLt
  have hknown : ([(f, v)].all fun x => Table.tour.hasField x.1) = true := by
    simp [Table.hasField, Table.fields, hf.1, hf.2]
  have hwritable : ([(f, v)].all fun x => Table.tour.isWritable x.1) = (f == 3) := by
    simp [Table.isWritable]
  rw [serveWrite_of_parsed (table := .tour) (parseWrite_writeOne (table := 2) (by decide) (by omega) (by omega) hv)
    hknown hn, takeWrite_of_not_port (by decide), hwritable]
  by_cases h3 : f = 3
  · subst h3
    have hrange : writeRange s .tour n.val [(3, v)] = decide (3 < v) := by
      simp [writeRange, writtenAbove, valueFor_one]
    have hrefused : writeRefused s .tour n.val [(3, v)] = false := rfl
    have happly : applyWrite .tour n.val [(3, v)] s = writeTour n [(3, v)] s := by
      simp only [applyWrite, toFin_val, Option.elim_some]
    simp only [hrange, hrefused, happly, decide_eq_true_eq, beq_self_eq_true, Bool.not_true, Bool.false_eq_true,
      if_false, ne_eq, not_true]
  · have hb : (f == 3) = false := by simpa using h3
    rw [hb, if_pos h3]
    rfl

/-! ### PROGRAM: what is written (R32, R34) -/

/-- A program with the fields of a write, its generation advanced. -/
def Program.written (items : List (Nat × Nat)) (r : Program) : Program :=
  let r := if namesTrio items then setTrio items r else r
  { r with
    language := (valueFor items 1).elim r.language (Fin.ofNat 16)
    voiceStep := (valueFor items 5).elim r.voiceStep (Fin.ofNat 16)
    floorStep := (valueFor items 6).elim r.floorStep (Fin.ofNat 16)
    fallbackStep := (valueFor items 7).elim r.fallbackStep (Fin.ofNat 16)
    carryAlways := (valueFor items 8).elim r.carryAlways (· == 1)
    generation := r.generation + 1 }

/-- The programs that a write derives anew: the one written, its former target and its new one (R32). -/
def writeConcerns (s : State) (p : ProgNo) (items : List (Nat × Nat)) : List ProgNo :=
  p :: s.programs[p].target.toList ++ (s.programs[p].written items).target.toList

theorem writeProgram_eq (p : ProgNo) (items : List (Nat × Nat)) (s : State) : writeProgram p items s =
    forEach (writeConcerns s p items) derive (s.modProgram p (Program.written items)) := by
  have h : writeProgram p items s = forEach (p :: s.programs[p].target.toList ++
      (s.modProgram p (Program.written items)).programs[p].target.toList) derive
      (s.modProgram p (Program.written items)) := rfl
  rw [h, modProgram_programs_self]
  rfl

/-- What a taken write leaves of the hub, and what it makes of the program (R26, R32, R34). -/
theorem writeProgram_spec (p : ProgNo) (items : List (Nat × Nat)) (s : State) :
    OnlyFollowers s (writeProgram p items s) ∧ PortsKept s (writeProgram p items s) ∧
      (writeProgram p items s).programs[p].setup = (s.programs[p].written items).setup ∧
      (writeProgram p items s).programs[p].generation = s.programs[p].generation + 1 ∧
      Settled (writeProgram p items s) p := by
  rw [writeProgram_eq]
  generalize hw : s.modProgram p (Program.written items) = w
  have hself : w.programs[p] = s.programs[p].written items := by rw [← hw, modProgram_programs_self]
  have hstart : OnlyFollowers s w := by rw [← hw]; rfl
  have hports : PortsKept s w := by rw [← hw]; exact fun _ => ⟨rfl, rfl, rfl⟩
  have hgrown : Grown w (forEach (writeConcerns s p items) derive w) :=
    forEach_keeps (P := Grown w) _ (fun q t ht => ht.trans (grown_derive q t)) w (Grown.refl w)
  have hgen : (forEach (writeConcerns s p items) derive w).programs[p].generation = w.programs[p].generation :=
    forEach_keeps (P := fun t => t.programs[p].generation = w.programs[p].generation) _
      (fun q t ht => (derive_generation q p t).trans ht) w rfl
  refine ⟨hstart.trans (onlyFollowers_forEach_derive _ w), hports.trans hgrown.2.1, ?_, ?_, ?_⟩
  · rw [(sameSetup_forEach_derive _ w).2 p, hself]
  · rw [hgen, hself]
    simp only [Program.written, setTrio]
    split
    · split <;> rfl
    · rfl
  · exact settled_forEach_derive _ w (.inl (by simp [writeConcerns]))

/-- A write on PROGRAM whose fields are all writable, as it is served (R151). -/
theorem serveWrite_program {o : List Byte} {items : List (Nat × Nat)}
    (hparse : parseWrite (requestPayload tag 2 o) = some ⟨3, p.val, items⟩)
    (hw : ∀ x ∈ items, 1 ≤ x.1 ∧ x.1 ≤ 8) : serveWrite a (requestPayload tag 2 o) s =
      if programRange s p items then refuse .range s
      else if programRefused s p items then refuse .refusedState s
      else done (entryResult (writeProgram p items s) .program p.val) (writeProgram p items s) := by
  have hknown : (items.all fun x => Table.program.hasField x.1) = true := by
    rw [List.all_eq_true]
    intro x hx
    have h25 : x.1 ≤ 25 := (hw x hx).2.trans (by decide)
    simp [Table.hasField, Table.fields, (hw x hx).1, h25]
  have hwritable : (items.all fun x => Table.program.isWritable x.1) = true := by
    rw [List.all_eq_true]
    exact fun x hx => decide_eq_true (hw x hx).2
  have hrange : writeRange s .program p.val items = programRange s p items := by
    simp only [writeRange, toFin_val]; rfl
  have hrefused : writeRefused s .program p.val items = programRefused s p items := by
    simp only [writeRefused, toFin_val]; rfl
  have happly : applyWrite .program p.val items s = writeProgram p items s := by
    simp only [applyWrite, toFin_val]; rfl
  rw [serveWrite_of_parsed (table := .program) hparse hknown p.isLt, takeWrite_of_not_port (by decide), hwritable,
    hrange, hrefused, happly, Bool.not_true, if_neg Bool.false_ne_true]

/-! ### PROGRAM: one field (R34) -/

theorem programRange_one {f : Nat} (hf : f ∈ [1, 5, 6, 7, 8]) : programRange s p [(f, v)] =
    decide ((if f = 8 then 1 else 15) < v) := by
  simp only [List.mem_cons, List.not_mem_nil, or_false] at hf
  rcases hf with rfl | rfl | rfl | rfl | rfl <;>
    simp [programRange, writtenAbove, valueFor_one, namesTrio]

theorem programRefused_one {f : Nat} (hf : f ∈ [1, 5, 6, 7, 8]) : programRefused s p [(f, v)] = false := by
  simp only [List.mem_cons, List.not_mem_nil, or_false] at hf
  rcases hf with rfl | rfl | rfl | rfl | rfl <;> simp [programRefused, valueFor_one, namesTrio]

theorem serveWrite_program_one {f : Nat} (hf : f ∈ [1, 5, 6, 7, 8]) (hv : v < 4294967296) :
    serveWrite a (requestPayload tag 2 (writeOne 3 p.val f v)) s =
      if (if f = 8 then 1 else 15) < v then refuse .range s
      else done (entryResult (writeProgram p [(f, v)] s) .program p.val) (writeProgram p [(f, v)] s) := by
  have hp := p.isLt
  have hle : 1 ≤ f ∧ f ≤ 8 := by
    simp only [List.mem_cons, List.not_mem_nil, or_false] at hf; omega
  rw [serveWrite_program (parseWrite_writeOne (by decide) (by omega) (by omega) hv)
    (by simpa using hle), programRange_one hf, programRefused_one hf]
  simp only [decide_eq_true_eq, Bool.false_eq_true, if_false]

/-- A write of language or steps, for programs that stand as R26 gives, has no further effect (R34). -/
theorem writeProgram_of_settled {items : List (Nat × Nat)}
    (hsetup : (s.programs[p].written items).setup = s.programs[p].setup)
    (hwanted : (s.programs[p].written items).wanted = s.programs[p].wanted)
    (hstate : (s.programs[p].written items).state = s.programs[p].state)
    (hs : Settled s p) (ht : ∀ q, s.programs[p].target = some q → Settled s q) :
    writeProgram p items s = s.modProgram p (Program.written items) := by
  have htarget : (s.programs[p].written items).target = s.programs[p].target := (setup_eq_iff.mp hsetup).2.2.1
  have hlike : StandAlike s (s.modProgram p (Program.written items)) := by
    refine ⟨⟨fun _ => rfl, fun q => ?_⟩, fun q => ?_⟩ <;> by_cases h : p = q
    · subst h; rw [modProgram_programs_self, hsetup]
    · rw [modProgram_programs_ne _ h]
    · subst h; rw [modProgram_programs_self]; exact ⟨hwanted, hstate⟩
    · rw [modProgram_programs_ne _ h]; exact ⟨rfl, rfl⟩
  have hsettled (q : ProgNo) (hq : q ∈ writeConcerns s p items) :
      Settled (s.modProgram p (Program.written items)) q := by
    refine hlike.settled ?_
    simp only [writeConcerns, htarget, List.cons_append, List.mem_cons, List.mem_append, Option.mem_toList,
      or_self] at hq
    rcases hq with rfl | hq
    · exact hs
    · exact ht q hq
  rw [writeProgram_eq]
  exact forEach_keeps_mem (P := fun t => t = s.modProgram p (Program.written items)) _
    (fun q hq t h => by rw [h]; exact derive_of_settled (hsettled q hq)) _ rfl

end Sys2Proof.Machine
end

section
/-! WRITE_ENTRY on PROGRAM: the voice mode with its slot or target (R32). -/

namespace Sys2Proof.Machine

open Laws

variable {s u : State} {a : PortNo} {rest : List Request} {tag : BitVec 16} {p q : ProgNo} {i : SourceSlot} {v : Nat}

/-! ### The two writes of R32 -/

/-- INTERPRETER mode with a slot, as field items. -/
def interpreterItems (i : SourceSlot) : List (Nat × Nat) := [(2, 2), (3, i.val)]

/-- LINKED mode with a target, as field items. -/
def linkedItems (q : ProgNo) : List (Nat × Nat) := [(2, 3), (4, q.val)]

theorem valueFor_interpreterItems (g : Nat) :
    valueFor (interpreterItems i) g = if g = 2 then some 2 else if g = 3 then some i.val else none := by
  by_cases h2 : g = 2
  · subst h2; rfl
  · by_cases h3 : g = 3
    · subst h3; rfl
    · simp [valueFor, interpreterItems, h2, h3, Ne.symm h2, Ne.symm h3]

theorem valueFor_linkedItems (g : Nat) :
    valueFor (linkedItems q) g = if g = 2 then some 3 else if g = 4 then some q.val else none := by
  by_cases h2 : g = 2
  · subst h2; rfl
  · by_cases h4 : g = 4
    · subst h4; rfl
    · simp [valueFor, linkedItems, h2, h4, Ne.symm h2, Ne.symm h4]

theorem writtenValue_of_lt {n : Nat} (h : n < 96) : writtenValue n = some n := by
  have hne : n ≠ absent32 := by simp only [absent32]; omega
  exact if_neg hne

theorem namesTrio_interpreterItems : namesTrio (interpreterItems i) = true := rfl

theorem namesTrio_linkedItems : namesTrio (linkedItems q) = true := rfl

theorem modeAfter_interpreterItems (r : Program) : modeAfter r (interpreterItems i) = some .interpreter := rfl

theorem modeAfter_linkedItems (r : Program) : modeAfter r (linkedItems q) = some .linked := rfl

theorem interpreterAfter_interpreterItems (r : Program) :
    interpreterAfter r .interpreter (interpreterItems i) = some i.val :=
  writtenValue_of_lt (n := i.val) (by omega)

theorem targetAfter_interpreterItems (r : Program) : targetAfter r .interpreter (interpreterItems i) = none := rfl

theorem interpreterAfter_linkedItems (r : Program) : interpreterAfter r .linked (linkedItems q) = none := rfl

theorem targetAfter_linkedItems (r : Program) : targetAfter r .linked (linkedItems q) = some q.val :=
  writtenValue_of_lt q.isLt

/-! ### Their refusals -/

/-- INTERPRETER mode is out of range for a base program only. -/
theorem programRange_interpreterItems : programRange s p (interpreterItems i) = decide (langOf p = 0) := by
  have hunused (x : Bool) : givenUnused x (interpreterItems i) 4 = false := by
    simp [givenUnused, valueFor_interpreterItems]
  simp only [programRange, writtenAbove, valueFor_interpreterItems, namesTrio_interpreterItems, trioRange,
    modeAfter_interpreterItems, interpreterAfter_interpreterItems, Option.bind_some, toFin_val, hunused]
  by_cases h : langOf p = 0 <;> simp [h, givenUnused]

/-- LINKED mode is out of range for a base program, for itself as target, and for a LINKED target. -/
theorem programRange_linkedItems : programRange s p (linkedItems q) = true ↔
    langOf p = 0 ∨ q = p ∨ s.programs[q].mode = .linked := by
  have hunused (x : Bool) : givenUnused x (linkedItems q) 3 = false := by
    simp [givenUnused, valueFor_linkedItems]
  simp only [programRange, writtenAbove, valueFor_linkedItems, namesTrio_linkedItems, trioRange,
    modeAfter_linkedItems, targetAfter_linkedItems, Option.bind_some, toFin_val, hunused]
  by_cases h : langOf p = 0 <;> simp [h, givenUnused]

theorem interpreterTaken_iff : interpreterTaken s p i = true ↔
    s.sources[i].role ≠ .interpreter ∨ s.sources[i].state = .unused ∨
      ∃ q : ProgNo, q ≠ p ∧ s.programs[q].mode = .interpreter ∧ s.programs[q].interpreter = some i := by
  simp only [interpreterTaken, Bool.or_eq_true, Bool.and_eq_true, bne_iff_ne, beq_iff_eq, List.any_eq_true, mem_fins,
    true_and, or_assoc, and_assoc]

theorem programRefused_interpreterItems : programRefused s p (interpreterItems i) = true ↔
    (s.programs[p].state = .active ∧ (s.programs[p].mode ≠ .interpreter ∨
      s.programs[p].interpreter ≠ some i ∨ s.programs[p].target ≠ none)) ∨ interpreterTaken s p i = true := by
  simp only [programRefused, namesTrio_interpreterItems, trioRefused, modeAfter_interpreterItems,
    interpreterAfter_interpreterItems, targetAfter_interpreterItems, Option.bind_some, Option.bind_none, toFin_val]
  simp only [Bool.true_and, Bool.or_eq_true, Bool.and_eq_true, beq_iff_eq, bne_iff_ne, reduceCtorEq, false_and,
    or_false, or_assoc, ne_comm (a := VoiceMode.interpreter), ne_comm (a := some i), ne_comm (a := none)]

theorem programRefused_linkedItems : programRefused s p (linkedItems q) = true ↔
    (s.programs[p].state = .active ∧ (s.programs[p].mode ≠ .linked ∨
      s.programs[p].interpreter ≠ none ∨ s.programs[p].target ≠ some q)) ∨
      ∃ x : ProgNo, x ≠ p ∧ s.programs[x].target = some p := by
  simp only [programRefused, namesTrio_linkedItems, trioRefused, modeAfter_linkedItems,
    interpreterAfter_linkedItems, targetAfter_linkedItems, Option.bind_some, Option.bind_none, toFin_val]
  simp only [Bool.true_and, Bool.or_eq_true, Bool.and_eq_true, beq_iff_eq, bne_iff_ne, List.any_eq_true, mem_fins,
    true_and, Bool.false_eq_true, or_false, or_assoc, ne_comm (a := VoiceMode.linked), ne_comm (a := some q),
    ne_comm (a := none)]

/-! ### What they set -/

theorem written_interpreterItems (r : Program) : (r.written (interpreterItems i)).setup =
    ((.interpreter, some i, none, r.carryAlways), r.keyed, r.issued) := by
  simp only [Program.written, namesTrio_interpreterItems, if_true, setTrio, modeAfter_interpreterItems,
    interpreterAfter_interpreterItems, targetAfter_interpreterItems, Option.bind_some, toFin_val]
  rfl

theorem written_linkedItems (r : Program) : (r.written (linkedItems q)).setup =
    ((.linked, none, some q, r.carryAlways), r.keyed, r.issued) := by
  simp only [Program.written, namesTrio_linkedItems, if_true, setTrio, modeAfter_linkedItems,
    interpreterAfter_linkedItems, targetAfter_linkedItems, Option.bind_some, toFin_val]
  rfl

theorem serveWrite_interpreterItems :
    serveWrite a (requestPayload tag 2 (writeTwo 3 p.val 2 2 3 i.val)) s =
      if langOf p = 0 then refuse .range s
      else if programRefused s p (interpreterItems i) then refuse .refusedState s
      else done (entryResult (writeProgram p (interpreterItems i) s) .program p.val)
        (writeProgram p (interpreterItems i) s) := by
  have hp := p.isLt
  have hi := i.isLt
  have hparse : parseWrite (requestPayload tag 2 (writeTwo 3 p.val 2 2 3 i.val)) =
      some ⟨3, p.val, interpreterItems i⟩ :=
    parseWrite_writeTwo (by decide) (by omega) (by decide) (by decide) (by decide) (by omega) (by decide)
  rw [serveWrite_program hparse (by simp [interpreterItems]), programRange_interpreterItems]
  simp only [decide_eq_true_eq]

theorem serveWrite_linkedItems :
    serveWrite a (requestPayload tag 2 (writeTwo 3 p.val 2 3 4 q.val)) s =
      if programRange s p (linkedItems q) then refuse .range s
      else if programRefused s p (linkedItems q) then refuse .refusedState s
      else done (entryResult (writeProgram p (linkedItems q) s) .program p.val)
        (writeProgram p (linkedItems q) s) := by
  have hp := p.isLt
  have hq := q.isLt
  have hparse : parseWrite (requestPayload tag 2 (writeTwo 3 p.val 2 3 4 q.val)) = some ⟨3, p.val, linkedItems q⟩ :=
    parseWrite_writeTwo (by decide) (by omega) (by decide) (by decide) (by decide) (by omega) (by decide)
  exact serveWrite_program hparse (by simp [linkedItems])

/-! ### The clauses on PROGRAM -/

/-- Language and steps (R34). -/
theorem writeEntry_steps {f : Nat} (hf : f ∈ [1, 5, 6, 7]) (hv : v < 4294967296)
    (hs : Serving s a (requestPayload tag 2 (writeOne 3 p.val f v)) rest) :
    (15 < v → WriteRefused s a rest tag .range) ∧
    (v ≤ 15 → Settled s p → (∀ q, s.programs[p].target = some q → Settled s q) →
      WriteTaken s { s with requests := rest, programs := s.programs.set p { s.programs[p] with
          language := if f = 1 then Fin.ofNat 16 v else s.programs[p].language
          voiceStep := if f = 5 then Fin.ofNat 16 v else s.programs[p].voiceStep
          floorStep := if f = 6 then Fin.ofNat 16 v else s.programs[p].floorStep
          fallbackStep := if f = 7 then Fin.ofNat 16 v else s.programs[p].fallbackStep
          generation := s.programs[p].generation + 1 } } a tag .program p.val) := by
  have hmem : f ∈ [1, 5, 6, 7, 8] := by
    simp only [List.mem_cons, List.not_mem_nil, or_false] at hf ⊢; omega
  have h8 : f ≠ 8 := by
    simp only [List.mem_cons, List.not_mem_nil, or_false] at hf; omega
  have hserve := serveWrite_program_one (s := { s with requests := rest }) (a := a) (p := p) (tag := tag) hmem hv
  rw [if_neg h8] at hserve
  refine ⟨fun h => writeRefused_of_serveWrite hs (hserve.trans (if_pos h)), fun h hsettled htarget => ?_⟩
  have hwritten : s.programs[p].written [(f, v)] = { s.programs[p] with
      language := if f = 1 then Fin.ofNat 16 v else s.programs[p].language
      voiceStep := if f = 5 then Fin.ofNat 16 v else s.programs[p].voiceStep
      floorStep := if f = 6 then Fin.ofNat 16 v else s.programs[p].floorStep
      fallbackStep := if f = 7 then Fin.ofNat 16 v else s.programs[p].fallbackStep
      generation := s.programs[p].generation + 1 } := by
    simp only [List.mem_cons, List.not_mem_nil, or_false] at hf
    rcases hf with rfl | rfl | rfl | rfl <;> rfl
  have htaken : writeProgram p [(f, v)] { s with requests := rest } =
      ({ s with requests := rest } : State).modProgram p (Program.written [(f, v)]) :=
    writeProgram_of_settled (by rw [hwritten]; rfl) (by rw [hwritten]) (by rw [hwritten]) hsettled htarget
  rw [if_neg (by omega), htaken, State.modProgram, hwritten] at hserve
  exact writeTaken_of_serveWrite hs hserve

/-- Carry always (R26, R34). -/
theorem writeEntry_carryAlways (hv : v < 4294967296)
    (hs : Serving s a (requestPayload tag 2 (writeOne 3 p.val 8 v)) rest) :
    (1 < v → WriteRefused s a rest tag .range) ∧
    (v ≤ 1 → ∃ u, WriteTaken s u a tag .program p.val ∧ u.programs[p].carryAlways = (v == 1) ∧
      u.programs[p].generation = s.programs[p].generation + 1 ∧
      (u.programs[p].wanted = true ↔ s.tours[tourOf p].state = .opened ∧
        s.programs[p].mode ≠ .unset ∧
        (0 < s.programs[p].keyed + s.programs[p].issued ∨ v = 1)) ∧
      (u.programs[p].wanted = true → u.programs[p].state = .active) ∧
      u.tours = s.tours ∧ u.receivers = s.receivers ∧ u.hearing = s.hearing ∧ SettingsKept s u) := by
  have hserve := serveWrite_program_one (s := { s with requests := rest }) (a := a) (p := p) (tag := tag)
    (f := 8) (by decide) hv
  rw [if_pos rfl] at hserve
  refine ⟨fun h => writeRefused_of_serveWrite hs (hserve.trans (if_pos h)), fun h => ?_⟩
  rw [if_neg (by omega)] at hserve
  refine ⟨_, writeTaken_of_serveWrite hs hserve, ?_⟩
  obtain ⟨hframe, hports, hsetup, hgen, hw, hact, -⟩ := writeProgram_spec p [(8, v)] { s with requests := rest }
  generalize writeProgram p [(8, v)] { s with requests := rest } = u at hframe hports hsetup hgen hw hact ⊢
  obtain ⟨hm, -, -, hc, hk, hi⟩ := setup_eq_iff.mp hsetup
  have hiff : u.programs[p].wanted = true ↔ s.tours[tourOf p].state = .opened ∧ s.programs[p].mode ≠ .unset ∧
      (0 < s.programs[p].keyed + s.programs[p].issued ∨ v = 1) := by
    have h1 : (v == 1) = true ↔ v = 1 := beq_iff_eq
    rw [hw, isWanted_iff, hm, hc, hk, hi, hframe.tours, and_assoc, ← h1]
    rfl
  refine ⟨hc, hgen, hiff, fun hwanted => hact.mpr ?_, hframe.tours, by rw [hframe], hframe.hearing,
    by rw [hframe], by rw [hframe], by rw [hframe], fun g => (hports g).1⟩
  rw [hw] at hwanted
  exact toBeActive_iff.mpr ⟨(isWanted_iff.mp hwanted).1, .inl hwanted⟩

/-- INTERPRETER mode with its slot (R32). -/
theorem writeEntry_interpreter
    (hs : Serving s a (requestPayload tag 2 (writeTwo 3 p.val 2 2 3 i.val)) rest) :
    (langOf p = 0 → WriteRefused s a rest tag .range) ∧
    (langOf p ≠ 0 → (s.programs[p].state = .active ∧
          (s.programs[p].mode ≠ .interpreter ∨ s.programs[p].interpreter ≠ some i)) ∨
        s.sources[i].role ≠ .interpreter ∨ s.sources[i].state = .unused ∨
        (∃ q : ProgNo, q ≠ p ∧ s.programs[q].mode = .interpreter ∧ s.programs[q].interpreter = some i) →
      WriteRefused s a rest tag .refusedState) ∧
    (langOf p ≠ 0 → s.programs[p].state ≠ .active → s.sources[i].role = .interpreter →
      s.sources[i].state ≠ .unused →
      (∀ q : ProgNo, q ≠ p → s.programs[q].mode = .interpreter → s.programs[q].interpreter ≠ some i) →
      ∃ u, WriteTaken s u a tag .program p.val ∧ u.programs[p].mode = .interpreter ∧
        u.programs[p].interpreter = some i ∧ u.programs[p].target = none ∧
        u.tours = s.tours ∧ u.receivers = s.receivers ∧ u.hearing = s.hearing) := by
  have hserve := serveWrite_interpreterItems (s := { s with requests := rest }) (a := a) (p := p) (i := i) (tag := tag)
  have hrefused := programRefused_interpreterItems (s := { s with requests := rest }) (p := p) (i := i)
  rw [interpreterTaken_iff] at hrefused
  refine ⟨fun h => writeRefused_of_serveWrite hs (hserve.trans (if_pos h)), fun h hst => ?_,
    fun h hna hrole hused hfree => ?_⟩
  · rw [if_neg h, if_pos (hrefused.mpr (hst.imp_left fun ⟨ha, hd⟩ => ⟨ha, hd.imp_right .inl⟩))] at hserve
    exact writeRefused_of_serveWrite hs hserve
  · have hn : ¬ programRefused { s with requests := rest } p (interpreterItems i) = true := by
      rw [hrefused]
      rintro (⟨ha, -⟩ | hr | hu | ⟨q, hq, hm, hi⟩)
      · exact hna ha
      · exact hr hrole
      · exact hused hu
      · exact hfree q hq hm hi
    rw [if_neg h, if_neg hn] at hserve
    refine ⟨_, writeTaken_of_serveWrite hs hserve, ?_⟩
    obtain ⟨hframe, -, hsetup, -⟩ := writeProgram_spec p (interpreterItems i) { s with requests := rest }
    rw [written_interpreterItems] at hsetup
    simp only [Program.setup, Prod.mk.injEq] at hsetup
    obtain ⟨⟨hm, hi, ht, -⟩, -⟩ := hsetup
    exact ⟨hm, hi, ht, hframe.tours, by rw [hframe], hframe.hearing⟩

/-- LINKED mode with its target (R32). -/
theorem writeEntry_linked
    (hs : Serving s a (requestPayload tag 2 (writeTwo 3 p.val 2 3 4 q.val)) rest) :
    (langOf p = 0 ∨ q = p ∨ s.programs[q].mode = .linked → WriteRefused s a rest tag .range) ∧
    (langOf p ≠ 0 → q ≠ p → s.programs[q].mode ≠ .linked → s.programs[p].state ≠ .active →
      ((∃ x : ProgNo, x ≠ p ∧ s.programs[x].target = some p) → WriteRefused s a rest tag .refusedState) ∧
      ((∀ x : ProgNo, x ≠ p → s.programs[x].target ≠ some p) →
        ∃ u, WriteTaken s u a tag .program p.val ∧ u.programs[p].mode = .linked ∧
          u.programs[p].target = some q ∧ u.programs[p].interpreter = none ∧
          u.tours = s.tours ∧ u.receivers = s.receivers ∧ u.hearing = s.hearing)) := by
  have hserve := serveWrite_linkedItems (s := { s with requests := rest }) (a := a) (p := p) (q := q) (tag := tag)
  have hrange := programRange_linkedItems (s := { s with requests := rest }) (p := p) (q := q)
  have hrefused := programRefused_linkedItems (s := { s with requests := rest }) (p := p) (q := q)
  refine ⟨fun h => writeRefused_of_serveWrite hs (hserve.trans (if_pos (hrange.mpr h))), fun hl hq hm hna => ?_⟩
  have hin : ¬ programRange { s with requests := rest } p (linkedItems q) = true := by
    rw [hrange]
    rintro (h | h | h)
    · exact hl h
    · exact hq h
    · exact hm h
  rw [if_neg hin] at hserve
  refine ⟨fun hx => ?_, fun hx => ?_⟩
  · rw [if_pos (hrefused.mpr (.inr hx))] at hserve
    exact writeRefused_of_serveWrite hs hserve
  · have hn : ¬ programRefused { s with requests := rest } p (linkedItems q) = true := by
      rw [hrefused]
      rintro (⟨ha, -⟩ | ⟨x, hxp, hxt⟩)
      · exact hna ha
      · exact hx x hxp hxt
    rw [if_neg hn] at hserve
    refine ⟨_, writeTaken_of_serveWrite hs hserve, ?_⟩
    obtain ⟨hframe, -, hsetup, -⟩ := writeProgram_spec p (linkedItems q) { s with requests := rest }
    rw [written_linkedItems] at hsetup
    simp only [Program.setup, Prod.mk.injEq] at hsetup
    obtain ⟨⟨hmode, hi, ht, -⟩, -⟩ := hsetup
    exact ⟨hmode, ht, hi, hframe.tours, by rw [hframe], hframe.hearing⟩

/-- Settles O56: the class of a tour by `writeTour_spec`, each field of a program by its clause above. -/
theorem writeEntrySetsATourOrAProgram : Obligations.WriteEntrySetsATourOrAProgram := by
  unfold Obligations.WriteEntrySetsATourOrAProgram
  intro s a rest tag v hv
  refine ⟨fun n => ⟨fun f hf hs => ?_, fun hs => ?_⟩, fun p => ⟨fun f hf hs => writeEntry_steps hf hv hs,
    fun hs => writeEntry_carryAlways hv hs, fun i hs => writeEntry_interpreter hs,
    fun q hs => writeEntry_linked hs⟩⟩
  · simp only [List.mem_cons, List.not_mem_nil, or_false] at hf
    have hserve := serveWrite_tour (s := { s with requests := rest }) (a := a) (n := n) (tag := tag)
      (f := f) (by omega) hv
    rw [if_pos (by omega)] at hserve
    exact writeRefused_of_serveWrite hs hserve
  · have hserve := serveWrite_tour (s := { s with requests := rest }) (a := a) (n := n) (tag := tag)
      (f := 3) (by decide) hv
    rw [if_neg (by decide)] at hserve
    refine ⟨fun h => writeRefused_of_serveWrite hs (hserve.trans (if_pos h)), fun h => ?_⟩
    rw [if_neg (by omega)] at hserve
    exact ⟨_, writeTaken_of_serveWrite hs hserve, writeTour_spec n v { s with requests := rest }⟩

end Sys2Proof.Machine
end

section
/-! What a block makes of its program (R47, R55), and the catch-up of one block (R43). -/

namespace Sys2Proof.Machine

open Laws

variable {s t : State} {p q : ProgNo} {i j : SourceSlot}

/-! ### Removal, read by read (R14) -/

theorem applyRemoval_sources_ne (s : State) (h : i ≠ j) : (applyRemoval i s).sources[j] = s.sources[j] := by
  unfold applyRemoval
  dsimp only
  split
  · rfl
  · exact modSource_sources_ne s h _

/-- The store after removal, for a reader of the source. -/
theorem applyRemoval_store (hr : isReader s i p = true) : (applyRemoval i s).sources[i].store =
    s.sources[i].store.dropWhile fun e => (readersOf s i).all fun q => passedBy e.seq (cursorOn s i q) := by
  rw [applyRemoval_of_reader hr, modSource_sources_self]

/-- What goes has been passed by each reader. -/
theorem passedBy_of_all (hr : isReader s i p = true) {e : Entry}
    (h : ((readersOf s i).all fun q => passedBy e.seq (cursorOn s i q)) = true) :
    passedBy e.seq (cursorOn s i p) = true := List.all_eq_true.mp h p (mem_readersOf.mpr hr)

/-- An entry that a reader has not passed stays. -/
theorem mem_applyRemoval {e : Entry} (hr : isReader s i p = true) (he : e ∈ s.sources[i].store)
    (hn : passedBy e.seq (cursorOn s i p) = false) : e ∈ (applyRemoval i s).sources[i].store := by
  rw [applyRemoval_store hr]
  rw [← List.takeWhile_append_dropWhile (p := fun e => (readersOf s i).all fun q => passedBy e.seq (cursorOn s i q))
    (l := s.sources[i].store), List.mem_append] at he
  refine he.resolve_left fun ht => Bool.false_ne_true (hn.symm.trans (passedBy_of_all hr ?_))
  have htaken := List.mem_takeWhile_imp ht
  exact htaken

theorem find?_dropWhile {α : Type} {q r : α → Bool} {l : List α} (h : ∀ x, q x = true → r x = false) :
    (l.dropWhile q).find? r = l.find? r := by
  induction l with
  | nil => rfl
  | cons x xs ih =>
    cases hq : q x with
    | false => rw [List.dropWhile_cons_of_neg (by simp [hq])]
    | true => rw [List.dropWhile_cons_of_pos hq, ih, List.find?_cons_of_neg (by simp [h x hq])]

/-- An entry that a cursor has passed is not after it (R13, R14). -/
theorem not_after_of_passed {n c : Seq} (h : passedBy n (some c) = true) :
    (decide (1 ≤ seqDistance n c) && decide (seqDistance n c ≤ 127)) = false := by
  obtain ⟨_, hc, hd⟩ := passedBy_iff.mp h
  cases hc
  rw [Bool.eq_false_iff, Ne, isAfterCursor_iff]
  have hnc : (n - c).toNat = (2 ^ 8 - c.toNat + n.toNat) % 2 ^ 8 := BitVec.toNat_sub n c
  have hcn : (c - n).toNat = (2 ^ 8 - n.toNat + c.toNat) % 2 ^ 8 := BitVec.toNat_sub c n
  have hn := n.isLt
  have hc := c.isLt
  omega

/-- Removal takes nothing that a reader has yet to take (R13, R14). -/
theorem takeOldestAfter_applyRemoval (hr : isReader s i p = true) :
    takeOldestAfter (applyRemoval i s).sources[i].store (cursorOn s i p) =
      takeOldestAfter s.sources[i].store (cursorOn s i p) := by
  rw [applyRemoval_store hr]
  cases hc : cursorOn s i p with
  | none =>
    have hnone : ∀ e : Entry, ((readersOf s i).all fun q => passedBy e.seq (cursorOn s i q)) = false := by
      intro e
      rw [Bool.eq_false_iff]
      intro h
      have hp := passedBy_of_all hr h
      rw [hc] at hp
      exact Bool.false_ne_true hp
    simp only [hnone]
    cases s.sources[i].store <;> rfl
  | some c =>
    refine find?_dropWhile fun e h => not_after_of_passed ?_
    have hp := passedBy_of_all hr h
    rwa [hc] at hp

/-! ### Takes, as they change the program (R47, R48) -/

/-- A reader after a take's answer. -/
def Reader.answered (x : Reader) (mute : Bool) : Option Entry → Reader
  | some e => ⟨some e.seq, .fresh, some (if mute then zeroBlock else e.samples)⟩
  | none => { x with conceal := x.conceal.step }

theorem answerTake_programs (p : ProgNo) (k : ReaderKind) (i : SourceSlot) (a : Option Entry) (s : State) :
    (answerTake p k i a s).1.programs = s.programs.set p
      (s.programs[p].setReader k ((s.programs[p].reader k).answered s.sources[i].mute a)) := by
  cases a with
  | none => rfl
  | some e => rw [answerTake_some, applyRemoval_eq]; rfl

theorem leadSamples_programs (p : ProgNo) (input : LeadInput) (s : State) : ∃ x,
    (leadSamples p input s).1.programs = s.programs.set p { s.programs[p] with lead := x } := by
  cases input with
  | conceal => exact ⟨_, rfl⟩
  | target b => exact ⟨_, rfl⟩
  | take n =>
    unfold leadSamples
    dsimp only
    split
    · exact ⟨_, rfl⟩
    · exact ⟨_, answerTake_programs p .lead _ _ s⟩

theorem programs_set_self (s : State) (p : ProgNo) : s.programs.set p s.programs[p] = s.programs :=
  Vector.set_getElem_self _

theorem floorSamples_programs (p : ProgNo) (s : State) : ∃ x,
    (floorSamples p s).1.programs = s.programs.set p { s.programs[p] with floor := x } := by
  unfold floorSamples
  split
  · exact ⟨s.programs[p].floor, (programs_set_self s p).symm⟩
  · exact ⟨_, answerTake_programs p .floor _ _ s⟩

theorem overlaySamples_programs (p : ProgNo) (s : State) : ∃ x,
    (overlaySamples p s).1.programs = s.programs.set p { s.programs[p] with overlay := x } := by
  unfold overlaySamples
  split
  · exact ⟨s.programs[p].overlay, (programs_set_self s p).symm⟩
  · exact ⟨_, answerTake_programs p .overlay _ _ s⟩

theorem deliver_programs (p : ProgNo) (b : Block) (s : State) : (deliver p b s).programs = s.programs := by
  refine forEach_keeps (P := fun t => t.programs = s.programs) _ (fun g t ht => ?_) s rfl
  split
  · exact ht
  · rw [handFrame_programs, ht]

/-- Count and CLIP of a completion (R55). -/
theorem countAndSend_programs (p : ProgNo) (cs : List Contribution) (s : State) : ∃ c k,
    (countAndSend p cs s).programs = s.programs.set p { s.programs[p] with
      blockCount := s.programs[p].blockCount + 1, clip := c, clipCount := k } := by
  unfold countAndSend
  dsimp only
  rw [deliver_programs]
  split
  · refine ⟨true, min 65535 (s.programs[p].clipCount + 1), ?_⟩
    unfold recordClip
    dsimp only
    split <;> simp
  · exact ⟨s.programs[p].clip, s.programs[p].clipCount, rfl⟩

/-- Another program's record is not concerned by a change of one. -/
theorem programs_ne_of_set {r : Program} (h : t.programs = s.programs.set p r) (hq : q ≠ p) :
    t.programs[q] = s.programs[q] := by
  have hv : p.val ≠ q.val := fun e => hq (Fin.ext e.symm)
  rw [h]
  exact Vector.getElem_set_ne _ _ hv

theorem programs_self_of_set {r : Program} (h : t.programs = s.programs.set p r) : t.programs[p] = r := by
  rw [h]
  exact Vector.getElem_set_self _

theorem setBlockDeadline_programs (p : ProgNo) (s : State) : (setBlockDeadline p s).programs =
    s.programs.set p { s.programs[p] with blockDeadline := nextBlockDeadline s p } := rfl

/-- A linker's block changes the linker only (R45, R57). -/
theorem linkedBlock_programs_ne (b : Block) (h : p ≠ q) (s : State) :
    (linkedBlock b q s).programs[p] = s.programs[p] := by
  unfold linkedBlock
  dsimp only
  obtain ⟨_, h1⟩ := leadSamples_programs q (.target b) s
  obtain ⟨_, h2⟩ := floorSamples_programs q (leadSamples q (.target b) s).1
  obtain ⟨_, h3⟩ := overlaySamples_programs q (floorSamples q (leadSamples q (.target b) s).1).1
  obtain ⟨_, _, h4⟩ := countAndSend_programs q (mixBlock q (.target b) s).2 (mixBlock q (.target b) s).1
  have hmix : (mixBlock q (.target b) s).1 =
    (overlaySamples q (floorSamples q (leadSamples q (.target b) s).1).1).1 := rfl
  rw [← hmix] at h3
  rw [programs_ne_of_set (setBlockDeadline_programs q _) h, programs_ne_of_set h4 h, programs_ne_of_set h3 h,
    programs_ne_of_set h2 h, programs_ne_of_set h1 h]

theorem mem_linkersOf_ne (hm : s.programs[p].mode ≠ .linked) (hq : q ∈ linkersOf s p) : p ≠ q := by
  rintro rfl
  have h := (List.mem_filter.mp hq).2
  simp only [Bool.and_eq_true, beq_iff_eq] at h
  exact hm h.1.1.2

/-- A program's record after its block: the readers as lead and floor took, one block more, and the next block deadline
(R47, R55). -/
theorem blockEvent_program (input : LeadInput) (hm : s.programs[p].mode ≠ .linked) : ∃ x c k,
    (blockEvent p input s).programs[p] = { (floorSamples p (leadSamples p input s).1).1.programs[p] with
      overlay := x, blockCount := s.programs[p].blockCount + 1, clip := c, clipCount := k
      blockDeadline := nextBlockDeadline s p } := by
  have hblock : blockEvent p input s = setBlockDeadline p (forEach
      (linkersOf (countAndSend p (mixBlock p input s).2 (mixBlock p input s).1) p)
      (linkedBlock (outputBlock (mixBlock p input s).2))
      (countAndSend p (mixBlock p input s).2 (mixBlock p input s).1)) := rfl
  obtain ⟨_, h1⟩ := leadSamples_programs p input s
  obtain ⟨_, h2⟩ := floorSamples_programs p (leadSamples p input s).1
  obtain ⟨x, h3⟩ := overlaySamples_programs p (floorSamples p (leadSamples p input s).1).1
  have hmix : (mixBlock p input s).1 = (overlaySamples p (floorSamples p (leadSamples p input s).1).1).1 := rfl
  rw [← hmix] at h3
  obtain ⟨c, k, h4⟩ := countAndSend_programs p (mixBlock p input s).2 (mixBlock p input s).1
  have hkeeps {α : Type} {π : State → α} (h : ∀ t a b c d e f, π { t with
      sources := a, programs := b, ports := c, notices := d, noticeOverflow := e, log := f } = π t) :
      π (countAndSend p (mixBlock p input s).2 (mixBlock p input s).1) = π s :=
    (mixKeeps_of_ignores h (π s)).countAndSend p _ _ ((mixKeeps_of_ignores h (π s)).mixBlock p input s rfl)
  generalize countAndSend p (mixBlock p input s).2 (mixBlock p input s).1 = v at hblock h4 hkeeps
  have hv := programs_self_of_set h4
  rw [programs_self_of_set h3, programs_self_of_set h2, programs_self_of_set h1] at hv
  have hlinked : (forEach (linkersOf v p) (linkedBlock (outputBlock (mixBlock p input s).2)) v).programs[p] =
      v.programs[p] := by
    refine forEach_keeps_mem (P := fun t => t.programs[p] = v.programs[p]) _ (fun q hq t ht => ?_) v rfl
    rw [linkedBlock_programs_ne _ (mem_linkersOf_ne (by rw [hv]; exact hm) hq), ht]
  have hmixed {α : Type} {π : State → α} (h : ∀ t a b c d e f, π { t with
      sources := a, programs := b, ports := c, notices := d, noticeOverflow := e, log := f } = π t) :
      π (forEach (linkersOf v p) (linkedBlock (outputBlock (mixBlock p input s).2)) v) = π s :=
    forEach_keeps (P := fun t => π t = π s) _
      (fun q t ht => (mixKeeps_of_ignores h (π s)).linkedBlock _ q t ht) v (hkeeps h)
  have hclock := hmixed (π := State.clock) fun _ _ _ _ _ _ _ => rfl
  have hlimits := hmixed (π := State.limits) fun _ _ _ _ _ _ _ => rfl
  generalize forEach (linkersOf v p) (linkedBlock (outputBlock (mixBlock p input s).2)) v = w
    at hblock hlinked hclock hlimits
  have hdeadline : nextBlockDeadline w p = nextBlockDeadline s p := by
    rw [nextBlockDeadline, hlinked, hv, State.after, State.after, hclock, hlimits]
    rfl
  refine ⟨x, c, k, ?_⟩
  rw [hblock, programs_self_of_set (setBlockDeadline_programs p w), hlinked, hdeadline, hv,
    programs_self_of_set h2, programs_self_of_set h1]

/-! ### The catch-up (R43) -/

theorem catchUpRounds_of_none (k : Nat) (h : catchUpEntry s p = none) : catchUpRounds k p s = s := by
  cases k with
  | zero => rfl
  | succ k => simp only [catchUpRounds, h]

theorem catchUp_of_none (h : catchUpEntry s p = none) : catchUp p s = s := by
  unfold catchUp
  split
  · rfl
  · exact catchUpRounds_of_none _ h

/-- An entry to catch up with, and none behind it: one block. -/
theorem catchUp_of_one {n : Seq} (h : catchUpEntry s p = some n)
    (h' : catchUpEntry (blockEvent p (.take n) s) p = none) : catchUp p s = blockEvent p (.take n) s := by
  unfold catchUp
  cases hl : leadSource s p with
  | none =>
    simp only [catchUpEntry, hl] at h
    split at h <;> cases h
  | some i =>
    have hne : s.sources[i].store ≠ [] := by
      intro he
      simp only [catchUpEntry, hl] at h
      split at h
      · split at h
        · next hi _ => cases hi; rw [he] at h; cases h
        · cases h
      · cases h
    obtain ⟨k, hk⟩ := Nat.exists_eq_succ_of_ne_zero (mt List.length_eq_zero_iff.mp hne)
    dsimp only
    rw [hk]
    simp only [catchUpRounds, h]
    exact catchUpRounds_of_none k h'

/-- What there is to catch up with, for an ACTIVE program in FOLLOWING with a source as lead. -/
theorem catchUpEntry_of_lead {c : Seq} (ha : s.programs[p].state = .active) (hp : s.programs[p].pace = .following)
    (hl : leadSource s p = some i) (hc : s.programs[p].lead.cursor = some c) :
    catchUpEntry s p = (takeBySequence s.sources[i].store (c + 1)).map (·.seq) := by
  simp only [catchUpEntry, ha, hp, hl, hc, and_self, if_true]

theorem map_seq_takeBySequence {store : List Entry} {n : Seq} (h : ∃ e ∈ store, e.seq = n) :
    (takeBySequence store n).map (·.seq) = some n := by
  obtain ⟨e, he⟩ := Option.isSome_iff_exists.mp (isSome_takeBySequence.mpr h)
  have hs := List.find?_some he
  rw [he, Option.map_some]
  exact congrArg some (beq_iff_eq.mp hs)

end Sys2Proof.Machine
end

section
/-! Voice condition and pace of an ACTIVE program as its guide and interpreter come and go (R30, R31, R39). -/

namespace Sys2Proof.Machine

open Laws

variable {s t w : State} {p q : ProgNo} {i j : SourceSlot} {e : Entry}

/-! ### The pace by the presence of the lead (R31, R40) -/

/-- With its lead present a program is in FOLLOWING, and the block deadline stays (R31). -/
theorem derivePace_of_present (ha : s.programs[p].state = .active) (hm : s.programs[p].mode ≠ .linked)
    (hl : leadPresent s p = true) : derivePace p s = s.modProgram p fun r => { r with pace := .following } := by
  have hpace : derivedPace s p = .following := derivedPace_iff.mpr hl
  have hdead : paceDeadline s p .following = s.programs[p].blockDeadline := by
    cases hc : s.programs[p].mode <;> simp_all [paceDeadline]
  unfold derivePace
  simp only [if_neg (not_not_intro ha), hpace, hdead]
  split
  · next h => rw [modProgram_of_fixed]; rw [h]
  · rfl

/-- Without its lead a program in FILL stays as it is (R31). -/
theorem derivePace_of_absent_fill (hl : leadPresent s p = false) (hp : s.programs[p].pace = .fill) :
    derivePace p s = s := by
  have hpace : derivedPace s p = .fill := by simp [derivedPace, hl]
  unfold derivePace
  simp only [hpace, hp, if_true, ite_self]

/-- A program whose lead goes enters FILL, with a block deadline (R31, R40). -/
theorem derivePace_of_absent_following (ha : s.programs[p].state = .active) (hl : leadPresent s p = false)
    (hp : s.programs[p].pace = .following) : derivePace p s = s.modProgram p fun r =>
      { r with pace := .fill, blockDeadline := some (r.blockDeadline.getD (s.clock + 4)) } := by
  have hpace : derivedPace s p = .fill := by simp [derivedPace, hl]
  unfold derivePace
  rw [if_neg (not_not_intro ha), hpace, hp, if_neg (by decide)]
  rfl

/-! ### The voice condition (R30) -/

theorem deriveVoice_of_not_active (h : s.programs[p].state ≠ .active) : deriveVoice p s = s := if_pos h

theorem deriveVoice_of_same (ha : s.programs[p].state = .active) (h : derivedCond s p = s.programs[p].cond) :
    deriveVoice p s = derivePace p s := by
  unfold deriveVoice
  rw [if_neg (not_not_intro ha)]
  exact if_pos h

theorem deriveVoice_of_other (ha : s.programs[p].state = .active) (h : derivedCond s p ≠ s.programs[p].cond) :
    deriveVoice p s = catchUp p (derivePace p (moveReading p (derivedCond s p) s)) := by
  unfold deriveVoice
  rw [if_neg (not_not_intro ha)]
  exact if_neg h

theorem derivedCond_of_not_interpreter (h : s.programs[p].mode ≠ .interpreter) : derivedCond s p = .voice :=
  if_neg fun hn => h hn.2

/-- The voice condition of an ACTIVE INTERPRETER program, by what is available. -/
theorem derivedCond_of_interpreter (ha : s.programs[p].state = .active) (hm : s.programs[p].mode = .interpreter) :
    derivedCond s p = if interpreterAvailable s p then .voice
      else if guideAvailable s p then .fallback else s.programs[p].cond := if_pos ⟨ha, hm⟩

/-- The lead of a base program (Table 2-4). -/
theorem leadPresent_of_guide (h : s.programs[p].mode = .guide) : leadPresent s p = guideAvailable s p := by
  simp only [leadPresent, h]

theorem leadPresent_of_voice (h : s.programs[p].mode = .interpreter) (hc : s.programs[p].cond = .voice) :
    leadPresent s p = interpreterAvailable s p := by simp only [leadPresent, h, hc]

theorem leadPresent_of_fallback (h : s.programs[p].mode = .interpreter) (hc : s.programs[p].cond = .fallback) :
    leadPresent s p = guideAvailable s p := by simp only [leadPresent, h, hc]

/-- Neither voice is there: the condition stays and the lead is absent (R30). -/
theorem unavailable_spec (ha : s.programs[p].state = .active) (h :
    (s.programs[p].mode = .guide ∧ s.programs[p].cond = .voice ∧ guideAvailable s p = false) ∨
      (s.programs[p].mode = .interpreter ∧ interpreterAvailable s p = false ∧ guideAvailable s p = false)) :
    derivedCond s p = s.programs[p].cond ∧ leadPresent s p = false := by
  rcases h with ⟨hm, hc, hg⟩ | ⟨hm, hi, hg⟩
  · exact ⟨by rw [derivedCond_of_not_interpreter (by rw [hm]; decide), hc], by rw [leadPresent_of_guide hm, hg]⟩
  · refine ⟨by rw [derivedCond_of_interpreter ha hm, hi, hg]; rfl, ?_⟩
    cases hc : s.programs[p].cond with
    | voice => rw [leadPresent_of_voice hm hc, hi]
    | fallback => rw [leadPresent_of_fallback hm hc, hg]

/-- The lead is there, and no other voice before it: the condition stays (R30). -/
theorem available_spec (ha : s.programs[p].state = .active) (h :
    (s.programs[p].mode = .guide ∧ s.programs[p].cond = .voice ∧ guideAvailable s p = true) ∨
      (s.programs[p].mode = .interpreter ∧ s.programs[p].cond = .voice ∧ interpreterAvailable s p = true) ∨
      (s.programs[p].mode = .interpreter ∧ s.programs[p].cond = .fallback ∧
        interpreterAvailable s p = false ∧ guideAvailable s p = true)) :
    derivedCond s p = s.programs[p].cond ∧ leadPresent s p = true ∧ s.programs[p].mode ≠ .linked := by
  rcases h with ⟨hm, hc, hg⟩ | ⟨hm, hc, hi⟩ | ⟨hm, hc, hi, hg⟩
  · exact ⟨by rw [derivedCond_of_not_interpreter (by rw [hm]; decide), hc], by rw [leadPresent_of_guide hm, hg],
      by rw [hm]; decide⟩
  · exact ⟨by rw [derivedCond_of_interpreter ha hm, hi, hc]; rfl, by rw [leadPresent_of_voice hm hc, hi],
      by rw [hm]; decide⟩
  · exact ⟨by rw [derivedCond_of_interpreter ha hm, hi, hg, hc]; rfl, by rw [leadPresent_of_fallback hm hc, hg],
      by rw [hm]; decide⟩

/-! ### The guide's reading moved (R39) -/

/-- A program whose guide reading moves to the lead, or back to the floor; `b` is one behind the interpreter's newest
entry. -/
def Program.moved (b : Option Seq) : VoiceCond → Program → Program
  | .fallback, r => { r with cond := .fallback, lead := r.floor, floor := Reader.initial }
  | .voice, r => { r with cond := .voice, floor := r.lead, lead := ⟨b, .fresh, none⟩ }

theorem moveReading_eq (p : ProgNo) (c : VoiceCond) (s : State) : moveReading p c s =
    applyRemovalTo (guideOf s p) (applyRemovalTo s.programs[p].interpreter
      (s.modProgram p (Program.moved (behindNewest s s.programs[p].interpreter) c))) := by
  cases c <;> (unfold moveReading; simp only [modProgram_programs_self]; rfl)

/-- Stores apart, the move changes the program's record. -/
theorem moveReading_frame (p : ProgNo) (c : VoiceCond) (s : State) : ∃ v, SourcesTrimmed s { s with sources := v } ∧
    moveReading p c s = { s.modProgram p (Program.moved (behindNewest s s.programs[p].interpreter) c) with
      sources := v } := by
  have hgrown : Grown s (moveReading p c s) := (followKeeps_grown s).moveReading p c s (Grown.refl s)
  refine ⟨_, hgrown.1, ?_⟩
  rw [moveReading_eq, applyRemovalTo_eq, applyRemovalTo_eq s.programs[p].interpreter]

theorem state_trimmed (h : SourcesTrimmed s t) (i : SourceSlot) : t.sources[i].state = s.sources[i].state := by
  rw [(h i).1]

theorem role_trimmed (h : SourcesTrimmed s t) (i : SourceSlot) : t.sources[i].role = s.sources[i].role := by
  rw [(h i).1]

theorem mute_trimmed (h : SourcesTrimmed s t) (i : SourceSlot) : t.sources[i].mute = s.sources[i].mute := by
  rw [(h i).1]

/-- What is available depends on states and roles of sources. -/
theorem isLive_trimmed (h : SourcesTrimmed s t) (i : Option SourceSlot) : isLive t i = isLive s i := by
  cases i with
  | none => rfl
  | some i => simp only [isLive, state_trimmed h]

theorem interpreterAvailable_trimmed (h : SourcesTrimmed s t)
    (hp : t.programs[p].interpreter = s.programs[p].interpreter) :
    interpreterAvailable t p = interpreterAvailable s p := by
  rw [interpreterAvailable, interpreterAvailable, hp]
  cases s.programs[p].interpreter with
  | none => rfl
  | some i => simp only [state_trimmed h, role_trimmed h]

/-! ### From VOICE to FALLBACK (R39) -/

/-- The interpreter lost, with the guide there: the lead takes over the floor's reading, and follows the guide. -/
theorem deriveVoice_to_fallback (ha : s.programs[p].state = .active) (hm : s.programs[p].mode = .interpreter)
    (hc : s.programs[p].cond = .voice) (hi : interpreterAvailable s p = false) (hg : guideAvailable s p = true)
    (hnext : ∀ j, guideOf s p = some j → ∀ c, s.programs[p].floor.cursor = some c →
      ∀ e ∈ s.sources[j].store, e.seq ≠ c + 1) :
    ∃ v, SourcesTrimmed s { s with sources := v } ∧ deriveVoice p s =
      { s with sources := v, programs := s.programs.set p { s.programs[p] with
          cond := .fallback, pace := .following, lead := s.programs[p].floor, floor := ⟨none, .fresh, none⟩ } } := by
  have hcond : derivedCond s p = .fallback := by rw [derivedCond_of_interpreter ha hm, hi, hg]; rfl
  have hlinked : s.programs[p].mode ≠ .linked := by rw [hm]; decide
  obtain ⟨v, htrim, hmove⟩ := moveReading_frame p .fallback s
  refine ⟨v, htrim, ?_⟩
  rw [deriveVoice_of_other ha (by rw [hcond, hc]; decide), hcond, hmove]
  have hself : ({ s.modProgram p (Program.moved (behindNewest s s.programs[p].interpreter) .fallback) with
      sources := v } : State).programs[p] =
        { s.programs[p] with cond := .fallback, lead := s.programs[p].floor, floor := Reader.initial } :=
    modProgram_programs_self s p _
  have hlive : leadPresent { s.modProgram p (Program.moved (behindNewest s s.programs[p].interpreter) .fallback) with
      sources := v } p = true := by
    rw [leadPresent_of_fallback (by rw [hself]; exact hm) (by rw [hself])]
    exact (isLive_trimmed htrim (guideOf s p)).trans hg
  rw [derivePace_of_present (by rw [hself]; exact ha) (by rw [hself]; exact hlinked) hlive]
  have hfinal : ({ s.modProgram p (Program.moved (behindNewest s s.programs[p].interpreter) .fallback) with
      sources := v } : State).modProgram p (fun r => { r with pace := .following }) =
      { s with sources := v, programs := s.programs.set p { s.programs[p] with
          cond := .fallback, pace := .following, lead := s.programs[p].floor, floor := ⟨none, .fresh, none⟩ } } := by
    simp [State.modProgram, Program.moved, Reader.initial]
  rw [hfinal]
  generalize hu : ({ s with sources := v, programs := s.programs.set p { s.programs[p] with
    cond := .fallback, pace := .following, lead := s.programs[p].floor, floor := ⟨none, .fresh, none⟩ } } : State) = u
  have hp : u.programs[p] = { s.programs[p] with
      cond := .fallback, pace := .following, lead := s.programs[p].floor, floor := ⟨none, .fresh, none⟩ } := by
    rw [← hu]; exact Vector.getElem_set_self _
  have hlead : leadSource u p = guideOf s p := by
    simp only [leadSource, hp, hm]
    rw [← hu]; rfl
  refine catchUp_of_none ?_
  cases hgd : guideOf s p with
  | none => simp only [catchUpEntry, hlead, hgd, ite_self]
  | some j =>
    cases hcur : s.programs[p].floor.cursor with
    | none => simp only [catchUpEntry, hlead, hgd, hp, hcur, ite_self]
    | some c =>
      rw [catchUpEntry_of_lead (by rw [hp]; exact ha) (by rw [hp]) (hlead.trans hgd) (by rw [hp]; exact hcur),
        Option.map_eq_none_iff, takeBySequence, List.find?_eq_none]
      intro e he hseq
      have hmem : e ∈ s.sources[j].store := (htrim j).2.mem (by rw [← hu] at he; exact he)
      exact hnext j hgd c hcur e hmem (beq_iff_eq.mp hseq)

end Sys2Proof.Machine
end

section
/-! An INTERPRETER program that returns to VOICE (R39, R43, R47). -/

namespace Sys2Proof.Machine

open Laws

variable {s t w : State} {p q : ProgNo} {i j : SourceSlot} {e : Entry}

/-- An entry is not passed by a cursor one behind it (R14). -/
theorem not_passed_one_behind (n : Seq) : passedBy n (some (n - 1)) = false := by
  rw [Bool.eq_false_iff, Ne, passedBy_iff]
  rintro ⟨c, hc, hd⟩
  obtain rfl := Option.some.inj hc
  bv_omega

theorem behindNewest_append {front : List Entry} (h : s.sources[i].store = front ++ [e]) :
    behindNewest s (some i) = some (e.seq - 1) := by
  simp only [behindNewest, takeNewest, h, List.getLast?_append, List.getLast?_singleton, Option.some_or,
    Option.map_some]

/-- The program as it reads after the return to VOICE, before its block (R39). -/
def Program.returned (n : Seq) (r : Program) : Program :=
  { r with cond := .voice, pace := .following, floor := r.lead, lead := ⟨some (n - 1), .fresh, none⟩ }

section
variable (ha : s.programs[p].state = .active) (hm : s.programs[p].mode = .interpreter)

include ha hm

/-- The return keeps the interpreter's newest entry, which the lead has yet to take (R14). -/
theorem newest_stays (hi : s.programs[p].interpreter = some i) (hg : guideOf s p ≠ some i)
    (ho : overlaySource s p ≠ some i) (he : e ∈ s.sources[i].store) : e ∈ (applyRemovalTo (guideOf s p)
      (applyRemoval i (s.modProgram p (Program.moved (some (e.seq - 1)) .voice)))).sources[i].store := by
  generalize hu : s.modProgram p (Program.moved (some (e.seq - 1)) .voice) = u
  have hp : u.programs[p] = Program.moved (some (e.seq - 1)) .voice s.programs[p] := by
    rw [← hu, modProgram_programs_self]
  have hguide : guideOf u p = guideOf s p := by rw [← hu]; rfl
  have hover : overlaySource u p = overlaySource s p := by rw [overlaySource, hp, ← hu]; rfl
  have hfloor : floorSource u p = guideOf s p := by
    rw [floorSource, hp, ← hguide]; simp only [Program.moved, hm]
  have hlead : leadSource u p = some i := by
    rw [leadSource, hp]; simp only [Program.moved, hm, hi]
  have hreads : isReader u i p = true := by
    rw [isReader_iff, hp]
    exact ⟨ha, .inr (.inl ⟨hm, .inl hi⟩)⟩
  have hcursor : cursorOn u i p = some (e.seq - 1) := by
    rw [cursorOn_lead (by rw [hover]; exact ho) (by rw [hfloor]; exact hg) hlead, hp]; rfl
  have hstay : e ∈ (applyRemoval i u).sources[i].store :=
    mem_applyRemoval hreads (by rw [← hu]; exact he) (by rw [hcursor, not_passed_one_behind])
  cases hgd : guideOf s p with
  | none => exact hstay
  | some j =>
    have hj : j ≠ i := fun h => hg (hgd.trans (congrArg some h))
    rw [applyRemovalTo, applyRemoval_sources_ne _ hj]
    exact hstay

/-- The return keeps what the floor has yet to take of the guide (R13, R14). -/
theorem floor_take_stays {n : Seq} (hg : guideOf s p = some j) (hj : j ≠ i) (ho : overlaySource s p ≠ some j) :
    takeOldestAfter (applyRemovalTo (guideOf s p) (applyRemoval i
      (s.modProgram p (Program.moved (some n) .voice)))).sources[j].store s.programs[p].lead.cursor =
      takeOldestAfter s.sources[j].store s.programs[p].lead.cursor := by
  have hstore : (applyRemoval i (s.modProgram p (Program.moved (some n) .voice))).sources[j] = s.sources[j] :=
    applyRemoval_sources_ne _ hj.symm
  generalize hu : applyRemoval i (s.modProgram p (Program.moved (some n) .voice)) = u at hstore
  have hsame : u = { s.modProgram p (Program.moved (some n) .voice) with sources := u.sources } := by
    rw [← hu]; exact applyRemoval_eq _ _
  have hp : u.programs[p] = Program.moved (some n) .voice s.programs[p] := by
    rw [hsame]; exact modProgram_programs_self _ _ _
  have hguide : guideOf u p = some j := by rw [← hg, hsame]; rfl
  have hover : overlaySource u p = overlaySource s p := by rw [overlaySource, hp, hsame]; rfl
  have hfloor : floorSource u p = some j := by
    rw [floorSource, hp, ← hguide]; simp only [Program.moved, hm]
  have hreads : isReader u j p = true := by
    rw [isReader_iff, hp]
    exact ⟨ha, .inr (.inl ⟨hm, .inr hguide⟩)⟩
  have hcursor : cursorOn u j p = s.programs[p].lead.cursor := by
    rw [cursorOn_floor (by rw [hover]; exact ho) hfloor, hp]; rfl
  rw [hg, applyRemovalTo, ← hcursor, takeOldestAfter_applyRemoval hreads, hstore]

end

/-! ### The block at the return (R43, R47) -/

/-- A lead take that finds its entry. -/
theorem leadSamples_take {n : Seq} (hl : leadSource s p = some i) (h : ∃ e ∈ s.sources[i].store, e.seq = n) :
    ∃ x, (leadSamples p (.take n) s).1 =
      applyRemoval i (s.modProgram p fun r => { r with lead := ⟨some n, .fresh, x⟩ }) := by
  obtain ⟨e, he⟩ := Option.isSome_iff_exists.mp (isSome_takeBySequence.mpr h)
  have hfound := List.find?_some he
  have hs : e.seq = n := beq_iff_eq.mp hfound
  refine ⟨some (if s.sources[i].mute then zeroBlock else e.samples), ?_⟩
  simp only [leadSamples, hl, he, answerTake_some, hs]
  rfl

theorem floorSamples_of_none (h : floorSource s p = none) : (floorSamples p s).1 = s := by
  simp only [floorSamples, h]

/-- A floor take gives the floor's reader its answer. -/
theorem floorSamples_program (h : floorSource s p = some j) : (floorSamples p s).1.programs[p] =
    { s.programs[p] with
      floor := s.programs[p].floor.answered s.sources[j].mute
        (takeOldestAfter s.sources[j].store s.programs[p].floor.cursor) } := by
  simp only [floorSamples, h]
  exact programs_self_of_set (answerTake_programs p .floor j _ s)

/-- The floor's reader after the block: the guide's oldest entry after its cursor, or its concealment (R47). -/
def floorAfter (s : State) (p : ProgNo) : Reader :=
  match guideOf s p with
  | none => s.programs[p].floor
  | some j => s.programs[p].floor.answered s.sources[j].mute
      (takeOldestAfter s.sources[j].store s.programs[p].floor.cursor)

/-- The record of an INTERPRETER program in VOICE after a block with an entry of its interpreter (R46, R47, R55). -/
theorem voice_block {n : Seq} (hm : s.programs[p].mode = .interpreter) (hc : s.programs[p].cond = .voice)
    (hi : s.programs[p].interpreter = some i) (hg : guideOf s p ≠ some i)
    (he : ∃ e ∈ s.sources[i].store, e.seq = n) : ∃ x y c k,
    (blockEvent p (.take n) s).programs[p] = { s.programs[p] with
      lead := ⟨some n, .fresh, x⟩, floor := floorAfter s p, overlay := y
      blockCount := s.programs[p].blockCount + 1, clip := c, clipCount := k
      blockDeadline := nextBlockDeadline s p } := by
  have hlead : leadSource s p = some i := by simp only [leadSource, hm, hc, hi]
  obtain ⟨x, hx⟩ := leadSamples_take hlead he
  obtain ⟨y, c, k, hblock⟩ := blockEvent_program (s := s) (p := p) (.take n) (by rw [hm]; decide)
  refine ⟨x, y, c, k, ?_⟩
  have hother (j : SourceSlot) (hj : i ≠ j) : (leadSamples p (.take n) s).1.sources[j] = s.sources[j] := by
    rw [hx]; exact applyRemoval_sources_ne _ hj
  have hsame : (leadSamples p (.take n) s).1 =
      { s.modProgram p (fun r => { r with lead := ⟨some n, .fresh, x⟩ }) with
        sources := (leadSamples p (.take n) s).1.sources } := by
    rw [hx]; exact applyRemoval_eq _ _
  generalize (leadSamples p (.take n) s).1 = u at hblock hother hsame
  have hp : u.programs[p] = { s.programs[p] with lead := ⟨some n, .fresh, x⟩ } := by
    rw [hsame]; exact modProgram_programs_self s p fun r => { r with lead := ⟨some n, .fresh, x⟩ }
  have hfloor : floorSource u p = guideOf s p := by
    have hguide : guideOf u p = guideOf s p := by rw [hsame]; rfl
    rw [floorSource, hp, ← hguide]; simp only [hm, hc]
  rw [hblock]
  cases hgd : guideOf s p with
  | none =>
    rw [floorSamples_of_none (hfloor.trans hgd), hp]
    simp only [floorAfter, hgd]
  | some j =>
    have hj : i ≠ j := fun h => hg (hgd.trans (congrArg some h.symm))
    rw [floorSamples_program (hfloor.trans hgd), hp, hother j hj]
    simp only [floorAfter, hgd]

/-! ### The return (R39, R43) -/

/-- The hub at the return, before its block: the program's reading moved, and entries of the two stores removed. -/
theorem moveReading_return {front : List Entry} (ha : s.programs[p].state = .active)
    (hm : s.programs[p].mode = .interpreter) (hi : s.programs[p].interpreter = some i)
    (hav : interpreterAvailable s p = true) (hg : guideOf s p ≠ some i) (ho : overlaySource s p ≠ some i)
    (hstore : s.sources[i].store = front ++ [e]) : ∃ v,
    SourcesTrimmed s { s with sources := v } ∧ e ∈ v[i].store ∧
    (∀ j, guideOf s p = some j → overlaySource s p ≠ some j →
      takeOldestAfter v[j].store s.programs[p].lead.cursor =
        takeOldestAfter s.sources[j].store s.programs[p].lead.cursor) ∧
    derivePace p (moveReading p .voice s) =
      { s with sources := v, programs := s.programs.set p (s.programs[p].returned e.seq) } := by
  have he : e ∈ s.sources[i].store := by rw [hstore]; exact List.mem_append_right _ List.mem_cons_self
  have hmove := moveReading_eq p .voice s
  obtain ⟨v, htrim, hframe⟩ := moveReading_frame p .voice s
  rw [hi, behindNewest_append hstore] at hmove hframe
  have hv : v = (applyRemovalTo (guideOf s p) (applyRemoval i
      (s.modProgram p (Program.moved (some (e.seq - 1)) .voice)))).sources :=
    congrArg State.sources (hframe.symm.trans hmove)
  refine ⟨v, htrim, by rw [hv]; exact newest_stays ha hm hi hg ho he, fun j hj hoj => ?_, ?_⟩
  · rw [hv]
    exact floor_take_stays ha hm hj (fun h => hg (hj.trans (congrArg some h))) hoj
  · rw [hframe]
    have hself : ({ s.modProgram p (Program.moved (some (e.seq - 1)) .voice) with sources := v } : State).programs[p] =
        Program.moved (some (e.seq - 1)) .voice s.programs[p] := modProgram_programs_self s p _
    have hlinked : s.programs[p].mode ≠ .linked := by rw [hm]; decide
    have hlive : leadPresent { s.modProgram p (Program.moved (some (e.seq - 1)) .voice) with sources := v } p =
        true := by
      rw [leadPresent_of_voice (by rw [hself]; exact hm) (by rw [hself]; rfl)]
      refine (interpreterAvailable_trimmed (s := s)
        (t := { s.modProgram p (Program.moved (some (e.seq - 1)) .voice) with sources := v }) htrim ?_).trans hav
      rw [hself]; rfl
    rw [derivePace_of_present (by rw [hself]; exact ha) (by rw [hself]; exact hlinked) hlive]
    simp [State.modProgram, Program.moved, Program.returned]

/-- The return to VOICE: one block with the interpreter's newest entry, when the entry next to it is not there. -/
theorem deriveVoice_to_voice {front : List Entry} (ha : s.programs[p].state = .active)
    (hm : s.programs[p].mode = .interpreter) (hc : s.programs[p].cond = .fallback)
    (hi : s.programs[p].interpreter = some i) (hav : interpreterAvailable s p = true) (hg : guideOf s p ≠ some i)
    (ho : overlaySource s p ≠ some i) (hstore : s.sources[i].store = front ++ [e])
    (hnext : ∀ x ∈ s.sources[i].store, x.seq ≠ e.seq + 1) : ∃ v x y c k,
    SourcesTrimmed s { s with sources := v } ∧
    (∀ j, guideOf s p = some j → overlaySource s p ≠ some j →
      takeOldestAfter v[j].store s.programs[p].lead.cursor =
        takeOldestAfter s.sources[j].store s.programs[p].lead.cursor) ∧
    (deriveVoice p s).programs[p] = { s.programs[p] with
      cond := .voice, pace := .following, lead := ⟨some e.seq, .fresh, x⟩
      floor := floorAfter { s with sources := v, programs := s.programs.set p (s.programs[p].returned e.seq) } p
      overlay := y, blockCount := s.programs[p].blockCount + 1, clip := c, clipCount := k
      blockDeadline := some (s.clock + BitVec.ofNat 32 (4 + s.limits.mixSlackMs)) } := by
  have hcond : derivedCond s p = .voice := by rw [derivedCond_of_interpreter ha hm, hav]; rfl
  obtain ⟨v, htrim, hnewest, hfloor, hmove⟩ := moveReading_return ha hm hi hav hg ho hstore
  have hvoice := deriveVoice_of_other ha (by rw [hcond, hc]; decide)
  rw [hcond, hmove] at hvoice
  generalize hw : ({ s with sources := v, programs := s.programs.set p (s.programs[p].returned e.seq) } : State) = w
    at hvoice
  have hp : w.programs[p] = s.programs[p].returned e.seq := by rw [← hw]; exact Vector.getElem_set_self _
  have hguide : guideOf w p = guideOf s p := by rw [← hw]; rfl
  obtain ⟨x, y, c, k, hblock⟩ := voice_block (s := w) (p := p) (i := i) (n := e.seq) (by rw [hp]; exact hm)
    (by rw [hp]; rfl) (by rw [hp]; exact hi) (by rw [hguide]; exact hg) ⟨e, by rw [← hw]; exact hnewest, rfl⟩
  have hentry : catchUpEntry w p = some e.seq := by
    have hlead : leadSource w p = some i := by
      rw [leadSource, hp]; simp only [Program.returned, hm, hi]
    rw [catchUpEntry_of_lead (c := e.seq - 1) (by rw [hp]; exact ha) (by rw [hp]; rfl) hlead (by rw [hp]; rfl),
      BitVec.sub_add_cancel]
    exact map_seq_takeBySequence ⟨e, by rw [← hw]; exact hnewest, rfl⟩
  have hdone : catchUpEntry (blockEvent p (.take e.seq) w) p = none := by
    have hlead : leadSource (blockEvent p (.take e.seq) w) p = some i := by
      rw [leadSource, hblock, hp]; simp only [Program.returned, hm, hi]
    rw [catchUpEntry_of_lead (c := e.seq) (by rw [hblock, hp]; exact ha) (by rw [hblock, hp]; rfl) hlead
      (by rw [hblock]), Option.map_eq_none_iff, takeBySequence, List.find?_eq_none]
    intro a hmem hseq
    have hgrown : Grown w (blockEvent p (.take e.seq) w) := (followKeeps_grown w).blockEvent p _ w (Grown.refl w)
    have hold := (hgrown.1 i).2.mem hmem
    rw [← hw] at hold
    exact hnext a ((htrim i).2.mem hold) (beq_iff_eq.mp hseq)
  rw [catchUp_of_one hentry hdone] at hvoice
  refine ⟨v, x, y, c, k, htrim, hfloor, ?_⟩
  have hdeadline : nextBlockDeadline w p = some (s.clock + BitVec.ofNat 32 (4 + s.limits.mixSlackMs)) := by
    simp only [nextBlockDeadline, hp, Program.returned, hm]
    rw [← hw]; rfl
  rw [hw, hvoice, hblock, hp, hdeadline]
  rfl

/-! ### What the derivation leaves alone -/

/-- The voice condition derived changes what the mix engine changes. -/
theorem deriveVoice_frame (p : ProgNo) (s : State) : deriveVoice p s = { s with
    programs := (deriveVoice p s).programs, sources := (deriveVoice p s).sources, ports := (deriveVoice p s).ports
    notices := (deriveVoice p s).notices, noticeOverflow := (deriveVoice p s).noticeOverflow
    log := (deriveVoice p s).log } := by
  have h := (mixKeeps_of_ignores (π := fun t => { t with
    sources := s.sources, programs := s.programs, ports := s.ports, notices := s.notices
    noticeOverflow := s.noticeOverflow, log := s.log }) (fun _ _ _ _ _ _ _ => rfl) s).deriveVoice p s rfl
  generalize deriveVoice p s = t at h
  rw [← h]

theorem floorAfter_of_none {r : Program} {v : Vector Source 64} (h : guideOf s p = none) :
    floorAfter { s with sources := v, programs := s.programs.set p r } p = r.floor := by
  have hp : ({ s with sources := v, programs := s.programs.set p r } : State).programs[p] = r :=
    Vector.getElem_set_self _
  have hg : guideOf { s with sources := v, programs := s.programs.set p r } p = none := h
  simp only [floorAfter, hg, hp]

theorem floorAfter_of_some {r : Program} {v : Vector Source 64} (h : guideOf s p = some j) :
    floorAfter { s with sources := v, programs := s.programs.set p r } p =
      r.floor.answered v[j].mute (takeOldestAfter v[j].store r.floor.cursor) := by
  have hp : ({ s with sources := v, programs := s.programs.set p r } : State).programs[p] = r :=
    Vector.getElem_set_self _
  have hg : guideOf { s with sources := v, programs := s.programs.set p r } p = some j := h
  simp only [floorAfter, hg, hp]

theorem answered_eq (x : Reader) (mute : Bool) (a : Option Entry) : x.answered mute a = match a with
    | some f => ⟨some f.seq, .fresh, some (if mute then zeroBlock else f.samples)⟩
    | none => { x with conceal := x.conceal.step } := by
  cases a <;> rfl

/-- Settles O28. -/
theorem voiceConditionAndPaceFollow : Obligations.VoiceConditionAndPaceFollow := by
  unfold Obligations.VoiceConditionAndPaceFollow
  intro s p
  refine ⟨deriveVoice_of_not_active, fun ha => ⟨fun h => ?_, fun h => ?_, fun hm hc hi hg hnext => ?_,
    fun i front e hm hc hi hav hg ho hstore hnext => ?_⟩⟩
  · obtain ⟨hcond, hlead, hlinked⟩ := available_spec ha h
    rw [deriveVoice_of_same ha hcond, derivePace_of_present ha hlinked hlead]
  · obtain ⟨hcond, hlead⟩ := unavailable_spec ha h
    rw [deriveVoice_of_same ha hcond]
    exact ⟨derivePace_of_absent_fill hlead, derivePace_of_absent_following ha hlead⟩
  · obtain ⟨v, htrim, heq⟩ := deriveVoice_to_fallback ha hm hc hi hg hnext
    exact ⟨_, rfl, by rw [heq]; exact htrim, by rw [heq]⟩
  · obtain ⟨v, x, y, c, k, htrim, hfloor, hp⟩ := deriveVoice_to_voice ha hm hc hi hav hg ho hstore hnext
    obtain ⟨hstores, hports, hnotices⟩ := (followKeeps_grown s).deriveVoice p s (Grown.refl s)
    refine ⟨deriveVoice p s, rfl, ?_⟩
    rw [hp]
    refine ⟨rfl, rfl, rfl, rfl, rfl, rfl, fun hgd => ?_, fun j hgd hoj => ?_, hstores, hports, hnotices,
      deriveVoice_frame p s⟩
    · exact floorAfter_of_none hgd
    · have hmute : v[j].mute = s.sources[j].mute := mute_trimmed htrim j
      refine (floorAfter_of_some hgd).trans ?_
      rw [hmute, show (s.programs[p].returned e.seq).floor = s.programs[p].lead from rfl, hfloor j hgd hoj]
      exact answered_eq _ _ _

end Sys2Proof.Machine
end

section
/-! The fleet's part of a closure (R124, R131): what its steps keep, and what they bring about. -/

namespace Sys2Proof.Machine

open Laws

variable {P : State → Prop} {s t u : State} {p q : ProgNo} {n : TourNo} {r x : RecNo}

/-- Not a state in which a receiver counts for its program (R116). -/
def RecState.Uncounted (st : RecState) : Prop := st ≠ .keyed ∧ st ≠ .issued

/-- Each of these orders goes back to one of those, with its number and tour. -/
def ComeFrom (l old : List OutfitOrder) : Prop := ∀ o ∈ l, ∃ o' ∈ old, o'.number = o.number ∧ o'.tour = o.tour

/-- Kept by the primitive changes of a closure at the fleet unit: no receiver becomes KEYED or ISSUED, and no order
comes into being. -/
structure ClosureKeeps (P : State → Prop) : Prop where
  note : ∀ (s : State) r (f : ReceiverData → ReceiverData),
    (∀ d, (f d).state = d.state ∧ (f d).keyedProgram = d.keyedProgram) → P s → P (s.noteReceiver r f)
  change : ∀ (s : State) r (f : ReceiverData → ReceiverData),
    (∀ d, (f d).state.Uncounted) → P s → P (s.changeReceiver r f)
  rack : ∀ (s : State) g f, P s → P (s.modRack g f)
  pool : ∀ (s : State) l, P s → P { s with pool := l }
  outfits : ∀ (s : State) l, ComeFrom l s.outfits → P s → P { s with outfits := l }

theorem uncounted_keying : RecState.keying.Uncounted := ⟨by decide, by decide⟩

theorem uncounted_dockedReady : RecState.dockedReady.Uncounted := ⟨by decide, by decide⟩

theorem uncounted_overdue : RecState.overdue.Uncounted := ⟨by decide, by decide⟩

theorem uncounted_byBattery (s : State) (b : Nat) : (byBattery s b).Uncounted := by
  unfold byBattery RecState.Uncounted
  split <;> decide

theorem comeFrom_filter (f : OutfitOrder → Bool) (l : List OutfitOrder) : ComeFrom (l.filter f) l :=
  fun o ho => ⟨o, List.mem_of_mem_filter ho, rfl, rfl⟩

/-! ### A KEYED receiver of a closing tour (R131 step 2) -/

/-- The receiver has this state on the tour. -/
def StandsOn (st : RecState) (n : TourNo) (s : State) (r : RecNo) : Prop :=
  ∃ d, s.receivers[r].data = some d ∧ d.state = st ∧ d.keyedProgram.map tourOf = some n

/-- The slot's UNKEY placed. -/
def unkeyOwed (place : Option (PortNo × RackSlot)) (s : State) : State :=
  match place with
  | none => s
  | some (g, k) => s.modRack g (Rack.placeUnkey k)

/-- A KEYED receiver back to its battery's state, counted off its program, with the UNKEY for its slot. -/
def unkeyed (r : RecNo) (d : ReceiverData) (p : ProgNo) (s : State) : State :=
  unkeyOwed d.place (uncountKeyed p (s.changeReceiver r fun x =>
    { x with state := byBattery s d.battery, keyedProgram := none }))

theorem closeKeyed_of_keyed {d : ReceiverData} (hd : s.receivers[r].data = some d) (hst : d.state = .keyed)
    (hp : d.keyedProgram = some p) (ht : tourOf p = n) : closeKeyed n r s =
      if byBattery s d.battery = .dockedReady then enterPool r (unkeyed r d p s) else unkeyed r d p s := by
  unfold closeKeyed
  simp only [hd, hst, hp]
  exact if_pos ht

theorem closeKeyed_of_not_keyed (h : ¬ StandsOn .keyed n s r) : closeKeyed n r s = s := by
  unfold closeKeyed
  split
  · rfl
  · next d hd =>
    split
    · next p hst hp => exact if_neg fun ht => h ⟨d, hd, hst, Option.map_eq_some_iff.mpr ⟨p, hp, ht⟩⟩
    · rfl

/-! ### What a closure keeps -/

namespace ClosureKeeps

variable (h : ClosureKeeps P)
include h

theorem modOrder (m) {f : OutfitOrder → OutfitOrder} (hf : ∀ o, (f o).number = o.number ∧ (f o).tour = o.tour)
    (s : State) (hs : P s) : P (modOrder m f s) := by
  refine h.outfits s _ (fun o ho => ?_) hs
  obtain ⟨o', ho', rfl⟩ := List.mem_map.mp ho
  refine ⟨o', ho', ?_⟩
  split
  · exact ⟨(hf o').1.symm, (hf o').2.symm⟩
  · exact ⟨rfl, rfl⟩

theorem placeKeyFor (r p) (s : State) (hs : P s) : P (placeKeyFor r p s) := by
  unfold Machine.placeKeyFor
  split
  · exact hs
  · exact h.rack _ _ _ hs

theorem selectHead (o) (s : State) (hs : P s) : P (selectHead o s) := by
  unfold Machine.selectHead
  split
  · exact hs
  · refine h.modOrder _ ?_ _ (h.placeKeyFor _ _ _ (h.change _ _ _ ?_ (h.pool _ _ hs)))
    · exact fun _ => ⟨rfl, rfl⟩
    · exact fun _ => uncounted_keying

theorem runSelection (s : State) (hs : P s) : P (runSelection s) :=
  forEach_keeps _ (fun o t ht => forEach_keeps _ (fun _ u hu => h.selectHead o u hu) t ht) s hs

theorem enterPool (r) (s : State) (hs : P s) : P (enterPool r s) := by
  unfold Machine.enterPool
  split
  · exact hs
  · exact ite_keeps (h.runSelection _ (h.pool _ _ hs)) hs

theorem cancelFlying (m r) (s : State) (hs : P s) : P (cancelFlying m r s) := by
  unfold Machine.cancelFlying
  split
  · exact hs
  · exact ite_keeps (h.note _ _ _ (fun _ => ⟨rfl, rfl⟩) hs) hs

theorem dropWaitingKey (x) (s : State) (hs : P s) : P (dropWaitingKey x s) := by
  unfold Machine.dropWaitingKey
  split
  · exact hs
  · exact h.rack _ _ _ hs

theorem cancelWaiting (m r) (s : State) (hs : P s) : P (cancelWaiting m r s) := by
  unfold Machine.cancelWaiting
  split
  · exact hs
  · refine ite_keeps (h.enterPool _ _ (h.change _ _ _ ?_ (h.dropWaitingKey _ _ hs))) hs
    exact fun _ => uncounted_dockedReady

/-- The receivers of a cancelled order, one after the other (R124 steps 2 and 3). -/
theorem cancelReceivers (m) (s : State) (hs : P s) :
    P (forEach (fins 320) (Machine.cancelWaiting m) (forEach (fins 320) (Machine.cancelFlying m) s)) :=
  forEach_keeps _ (fun r t ht => h.cancelWaiting m r t ht) _
    (forEach_keeps _ (fun r t ht => h.cancelFlying m r t ht) _ hs)

theorem cancelOrder (m) (s : State) (hs : P s) : P (cancelOrder m s) :=
  h.cancelReceivers m _ (h.outfits s _ (comeFrom_filter _ _) hs)

theorem closeIssued (n r) (s : State) (hs : P s) : P (closeIssued n r s) := by
  unfold Machine.closeIssued
  split
  · exact hs
  · exact ite_keeps (h.change _ _ _ (fun _ => uncounted_overdue) hs) hs

theorem unkeyOwed (x) (s : State) (hs : P s) : P (unkeyOwed x s) := by
  cases x with
  | none => exact hs
  | some x => exact h.rack _ _ _ hs

/-- A KEYED receiver unkeyed: the count of its program is the one change beyond the fleet (R131 step 2). -/
theorem closeKeyed (hu : ∀ p s, tourOf p = n → P s → P (uncountKeyed p s)) (r) (s : State) (hs : P s) :
    P (closeKeyed n r s) := by
  by_cases hk : StandsOn .keyed n s r
  · obtain ⟨d, hd, hst, hm⟩ := hk
    obtain ⟨p, hp, ht⟩ := Option.map_eq_some_iff.mp hm
    have hcount : P (unkeyed r d p s) := h.unkeyOwed _ _ (hu p _ ht (h.change s r _
      (fun _ => uncounted_byBattery s _) hs))
    rw [closeKeyed_of_keyed hd hst hp ht]
    exact ite_keeps (h.enterPool _ _ hcount) hcount
  · rwa [closeKeyed_of_not_keyed hk]

theorem cancelOrders (ms) (s : State) (hs : P s) : P (forEach ms Machine.cancelOrder s) :=
  forEach_keeps _ (fun m t ht => h.cancelOrder m t ht) s hs

theorem closeFleet (hu : ∀ p s, tourOf p = n → P s → P (uncountKeyed p s)) (s : State) (hs : P s) :
    P (closeFleet n s) :=
  forEach_keeps _ (fun r t ht => h.closeIssued n r t ht) _
    (forEach_keeps _ (fun r t ht => h.closeKeyed hu r t ht) _ (h.cancelOrders _ s hs))

end ClosureKeeps

end Sys2Proof.Machine
end

section
/-! What a closure at the fleet unit brings about: no receiver KEYED or ISSUED on the tour, no order of it (R131). -/

namespace Sys2Proof.Machine

open Laws

variable {P : State → Prop} {s t u : State} {p q : ProgNo} {n m : TourNo} {r x : RecNo} {st : RecState}

/-! ### An operation for each record of a table -/

/-- What an operation brings about for its own record and leaves for others holds for each record of the list. -/
theorem forEach_settles {α : Type} {f : α → State → State} {Q : α → State → Prop} {xs : List α} {x : α} (hx : x ∈ xs)
    (hown : ∀ s, Q x (f x s)) (hkeep : ∀ y s, Q x s → Q x (f y s)) (s : State) : Q x (forEach xs f s) := by
  induction xs generalizing s with
  | nil => exact absurd hx List.not_mem_nil
  | cons y ys ih =>
    rw [forEach_cons]
    rcases List.mem_cons.mp hx with rfl | h
    · exact forEach_keeps (P := Q x) ys hkeep _ (hown s)
    · exact ih h _

/-! ### The counts of programs, as they change the hub (R116) -/

theorem onlyFollowers_changeCounts (p : ProgNo) (f : Program → Program) (s : State) :
    OnlyFollowers s (changeCounts p f s) := by
  have hset : OnlyFollowers s (s.modProgram p f) := (mixKeeps_onlyFollowers s).program s p f rfl
  have hderive : OnlyFollowers s (rederive [p] (s.modProgram p f)) :=
    hset.trans (onlyFollowers_forEach_derive _ _)
  refine ite_keeps (P := OnlyFollowers s) (hderive.trans ?_) hderive
  rw [OnlyFollowers, (rerank_eq [p] _).1]

/-- What only looks at other parts of the hub is kept as a KEYED receiver is counted off. -/
theorem uncountKeyed_congr {α : Type} {π : State → α} (h : ∀ t a b c d e f g, π { t with
      programs := a, sources := b, galleries := c, ports := d, notices := e, noticeOverflow := f, log := g } = π t)
    (p : ProgNo) (s : State) : π (uncountKeyed p s) = π s := by
  rw [uncountKeyed, onlyFollowers_changeCounts p _ s, h]

/-! ### Receivers (R131 steps 2 and 3) -/

theorem noteReceiver_self (s : State) (r : RecNo) (f : ReceiverData → ReceiverData) :
    (s.noteReceiver r f).receivers[r].data = s.receivers[r].data.map f := by simp

theorem noteReceiver_ne (s : State) (h : r ≠ x) (f : ReceiverData → ReceiverData) :
    (s.noteReceiver r f).receivers[x] = s.receivers[x] := by
  have hv : r.val ≠ x.val := fun e => h (Fin.ext e)
  simp [Vector.getElem_set_ne, hv]

theorem changeReceiver_self (s : State) (r : RecNo) (f : ReceiverData → ReceiverData) :
    (s.changeReceiver r f).receivers[r].data = s.receivers[r].data.map f := by simp

theorem changeReceiver_ne (s : State) (h : r ≠ x) (f : ReceiverData → ReceiverData) :
    (s.changeReceiver r f).receivers[x] = s.receivers[x] := by
  have hv : r.val ≠ x.val := fun e => h (Fin.ext e)
  simp [Vector.getElem_set_ne, hv]

theorem standsOn_congr (h : t.receivers[r] = s.receivers[r]) : StandsOn st n t r ↔ StandsOn st n s r := by
  rw [StandsOn, StandsOn, h]

/-- A receiver changed to a state that does not count is not KEYED or ISSUED. -/
theorem not_standsOn_change (hst : st = .keyed ∨ st = .issued) {f : ReceiverData → ReceiverData}
    (hf : ∀ d, (f d).state.Uncounted) : ¬ StandsOn st n (s.changeReceiver r f) r := by
  rintro ⟨d, hd, hs, -⟩
  rw [changeReceiver_self] at hd
  obtain ⟨d', -, rfl⟩ := Option.map_eq_some_iff.mp hd
  obtain ⟨hk, hi⟩ := hf d'
  rcases hst with rfl | rfl
  · exact hk hs
  · exact hi hs

/-- No closure makes a receiver KEYED or ISSUED. -/
theorem closureKeeps_not_standsOn (hst : st = .keyed ∨ st = .issued) (n : TourNo) (r : RecNo) :
    ClosureKeeps fun t => ¬ StandsOn st n t r where
  note s x f hf hs := by
    by_cases h : x = r
    · subst h
      rintro ⟨d, hd, hs', hm⟩
      rw [noteReceiver_self] at hd
      obtain ⟨d', hd', rfl⟩ := Option.map_eq_some_iff.mp hd
      obtain ⟨h1, h2⟩ := hf d'
      exact hs ⟨d', hd', h1 ▸ hs', h2 ▸ hm⟩
    · rwa [standsOn_congr (noteReceiver_ne s h f)]
  change s x f hf hs := by
    by_cases h : x = r
    · subst h; exact not_standsOn_change hst hf
    · rwa [standsOn_congr (changeReceiver_ne s h f)]
  rack _ _ _ hs := hs
  pool _ _ hs := hs
  outfits _ _ _ hs := hs

theorem standsOn_uncountKeyed (p : ProgNo) (s : State) :
    StandsOn st n (uncountKeyed p s) r ↔ StandsOn st n s r :=
  standsOn_congr (congrArg (·[r]) (uncountKeyed_congr (π := State.receivers) (fun _ _ _ _ _ _ _ _ => rfl) p s))

theorem not_standsOn_closeKeyed (hst : st = .keyed ∨ st = .issued) (x : RecNo) (hs : ¬ StandsOn st n s r) :
    ¬ StandsOn st n (closeKeyed m x s) r :=
  (closureKeeps_not_standsOn hst n r).closeKeyed (fun p s _ h => by rwa [standsOn_uncountKeyed]) x s hs

/-- The step of a receiver leaves it not KEYED on the tour. -/
theorem not_keyed_closeKeyed (n : TourNo) (r : RecNo) (s : State) : ¬ StandsOn .keyed n (closeKeyed n r s) r := by
  have h := closureKeeps_not_standsOn (.inl rfl : RecState.keyed = .keyed ∨ RecState.keyed = .issued) n r
  by_cases hk : StandsOn .keyed n s r
  · obtain ⟨d, hd, hst, hm⟩ := hk
    obtain ⟨p, hp, ht⟩ := Option.map_eq_some_iff.mp hm
    have hunkeyed : ¬ StandsOn .keyed n (unkeyed r d p s) r := by
      refine h.unkeyOwed _ _ ?_
      rw [standsOn_uncountKeyed]
      exact not_standsOn_change (.inl rfl) fun _ => uncounted_byBattery s _
    rw [closeKeyed_of_keyed hd hst hp ht]
    exact ite_keeps (P := fun t => ¬ StandsOn .keyed n t r) (h.enterPool _ _ hunkeyed) hunkeyed
  · rwa [closeKeyed_of_not_keyed hk]

/-- The step of a receiver leaves it not ISSUED on the tour. -/
theorem not_issued_closeIssued (n : TourNo) (r : RecNo) (s : State) :
    ¬ StandsOn .issued n (closeIssued n r s) r := by
  unfold closeIssued
  split
  · next hd =>
    rintro ⟨d, hd', -⟩
    rw [hd] at hd'
    cases hd'
  · next d hd =>
    split
    · exact not_standsOn_change (.inr rfl) fun _ => uncounted_overdue
    · next hn =>
      rintro ⟨d', hd', hst, hm⟩
      cases hd.symm.trans hd'
      exact hn ⟨hst, hm⟩

/-- After the closure no receiver is KEYED or ISSUED on the tour (R131). -/
theorem not_standsOn_closeFleet (hst : st = .keyed ∨ st = .issued) (n : TourNo) (r : RecNo) (s : State) :
    ¬ StandsOn st n (closeFleet n s) r := by
  have h := closureKeeps_not_standsOn hst n r
  have hissue (t : State) (ht : ¬ StandsOn st n t r) : ¬ StandsOn st n (forEach (fins 320) (closeIssued n) t) r :=
    forEach_keeps (P := fun t => ¬ StandsOn st n t r) _ (fun x t ht => h.closeIssued n x t ht) t ht
  unfold closeFleet
  dsimp only
  rcases hst with rfl | rfl
  · exact hissue _ (forEach_settles (Q := fun r t => ¬ StandsOn .keyed n t r) (mem_fins r)
      (fun t => not_keyed_closeKeyed n r t) (fun x t ht => not_standsOn_closeKeyed (.inl rfl) x ht) _)
  · exact forEach_settles (Q := fun r t => ¬ StandsOn .issued n t r) (mem_fins r)
      (fun t => not_issued_closeIssued n r t) (fun x t ht => h.closeIssued n x t ht) _

/-! ### Outfit orders (R124, R131 step 1) -/

/-- Orders only go. -/
theorem closureKeeps_comeFrom (s : State) : ClosureKeeps fun t => ComeFrom t.outfits s.outfits where
  note _ _ _ _ hs := hs
  change _ _ _ _ hs := hs
  rack _ _ _ hs := hs
  pool _ _ hs := hs
  outfits t l hl hs o ho := by
    obtain ⟨o₁, h₁, hn₁, ht₁⟩ := hl o ho
    obtain ⟨o₂, h₂, hn₂, ht₂⟩ := hs o₁ h₁
    exact ⟨o₂, h₂, hn₂.trans hn₁, ht₂.trans ht₁⟩

/-- No order has this number. -/
def Without (k : BitVec 16) (s : State) : Prop := ∀ o ∈ s.outfits, o.number ≠ k

/-- A number that is gone stays gone. -/
theorem closureKeeps_without (k : BitVec 16) : ClosureKeeps (Without k) where
  note _ _ _ _ hs := hs
  change _ _ _ _ hs := hs
  rack _ _ _ hs := hs
  pool _ _ hs := hs
  outfits t l hl hs o ho hk := by
    obtain ⟨o₁, h₁, hn₁, -⟩ := hl o ho
    exact hs o₁ h₁ (hn₁.trans hk)

theorem without_cancelOrder (k : BitVec 16) (s : State) : Without k (cancelOrder k s) := by
  refine (closureKeeps_without k).cancelReceivers k _ fun o ho hk => ?_
  have hf := (List.mem_filter.mp ho).2
  simp [hk] at hf

theorem uncountKeyed_outfits (p : ProgNo) (s : State) : (uncountKeyed p s).outfits = s.outfits :=
  uncountKeyed_congr (π := State.outfits) (fun _ _ _ _ _ _ _ _ => rfl) p s

/-- After the closure no order names the tour (R131). -/
theorem outfits_closeFleet (n : TourNo) (s : State) : ∀ o ∈ (closeFleet n s).outfits, o.tour ≠ n := by
  intro o ho ht
  obtain ⟨o', ho', hnum, htour⟩ := (closureKeeps_comeFrom s).closeFleet (n := n)
    (fun p t _ h => by rwa [uncountKeyed_outfits]) s (fun o ho => ⟨o, ho, rfl, rfl⟩) o ho
  have hlisted : o'.number ∈ (s.outfits.filter fun o => o.tour == n).map (·.number) :=
    List.mem_map.mpr ⟨o', List.mem_filter.mpr ⟨ho', by simp [htour, ht]⟩, rfl⟩
  have hgone := closureKeeps_without o'.number
  have hcancelled : Without o'.number
      (forEach ((s.outfits.filter fun o => o.tour == n).map (·.number)) cancelOrder s) :=
    forEach_settles (Q := Without) hlisted (fun t => without_cancelOrder _ t)
      (fun k t ht => hgone.cancelOrder k t ht) s
  have hkeyed := forEach_keeps (P := Without o'.number) (fins 320) (fun x t ht =>
    hgone.closeKeyed (n := n) (fun p t _ h => by rwa [Without, uncountKeyed_outfits]) x t ht) _ hcancelled
  exact forEach_keeps (P := Without o'.number) (fins 320) (fun x t ht => hgone.closeIssued n x t ht) _ hkeyed
    o ho hnum.symm

end Sys2Proof.Machine
end

section
/-! A closing tour leaves carriers and wait lists alone once its demands ended (R22, R26). -/

namespace Sys2Proof.Machine

open Laws

variable {P : State → Prop} {s t u : State} {p q : ProgNo} {n : TourNo} {G : Vector Gallery 12}

/-! ### Stored wanted as R26 gives it -/

/-- The stored wanted of a program is what R26 gives. -/
def TrueWanted (q : ProgNo) (s : State) : Prop := s.programs[q].wanted = isWanted s q

theorem trueWanted_derive_self (p : ProgNo) (s : State) : TrueWanted p (derive p s) := (settled_derive p s).1

theorem trueWanted_derive (p : ProgNo) (h : TrueWanted q s) : TrueWanted q (derive p s) := by
  by_cases hq : q = p
  · subst hq; exact trueWanted_derive_self q s
  · rw [TrueWanted, (sameSetup_derive p s).isWanted_eq, (derive_ne s hq).1]
    exact h

/-- Where no gallery is in the set, a derivation hands no demand on. -/
theorem derive_galleries_of_empty (h : s.tours[tourOf p].gallerySet = []) : (derive p s).galleries = s.galleries := by
  have hset : (stateDerived p s).tours[tourOf p].gallerySet = [] := by rw [stateDerived_eq]; exact h
  have hsame : (stateDerived p s).galleries = s.galleries := by rw [stateDerived_eq]
  have harrive : demandArrivals p (stateDerived p s) = stateDerived p s := by rw [demandArrivals, hset]; rfl
  have hend : demandEnds p (stateDerived p s) = stateDerived p s := by rw [demandEnds, hset]; rfl
  rw [derive_eq, harrive, hend, ite_self, ite_self, hsame]

/-! ### A tour that is closed, with an empty set -/

/-- The tour is closed with an empty set, the targets of its programs in other tours are wanted as R26 gives, and
these are the carriers and wait lists. -/
structure Quiet (n : TourNo) (G : Vector Gallery 12) (s : State) : Prop where
  closed : s.tours[n].state = .closed
  empty : s.tours[n].gallerySet = []
  outer : ∀ q r : ProgNo, tourOf q = n → s.programs[q].mode = .linked → s.programs[q].target = some r →
    tourOf r ≠ n → TrueWanted r s
  galleries : s.galleries = G

theorem Quiet.of_standAlike (h : Quiet n G s) (ha : StandAlike s t) (ht : t.tours = s.tours)
    (hg : t.galleries = s.galleries) : Quiet n G t where
  closed := by rw [ht]; exact h.closed
  empty := by rw [ht]; exact h.empty
  outer q r hq hm htarget hr := by
    obtain ⟨hmode, -, htg, -⟩ := setup_eq_iff.mp (ha.1.2 q)
    rw [TrueWanted, (ha.2 r).1, ha.1.isWanted_eq]
    exact h.outer q r hq (hmode ▸ hm) (htg ▸ htarget) hr
  galleries := hg.trans h.galleries

theorem Quiet.of_same (h : Quiet n G s) (ht : t.tours = s.tours) (hp : t.programs = s.programs)
    (hg : t.galleries = s.galleries) : Quiet n G t :=
  h.of_standAlike (standAlike_of_same_programs (fun m => by rw [ht]) hp) ht hg

/-- No program of a closed tour is wanted. -/
theorem Quiet.not_wanted (h : Quiet n G s) (hq : tourOf q = n) : isWanted s q = false := by
  subst hq
  rw [Bool.eq_false_iff, Ne, isWanted_iff, h.closed]
  rintro ⟨⟨ho, -⟩, -⟩
  cases ho

/-- Derivations of the tour's programs and of their targets leave it so. -/
theorem Quiet.derive (h : Quiet n G s) (hx : tourOf p = n ∨ TrueWanted p s) : Quiet n G (derive p s) where
  closed := by rw [(onlyFollowers_derive p s).tours]; exact h.closed
  empty := by rw [(onlyFollowers_derive p s).tours]; exact h.empty
  outer q r hq hm htarget hr := by
    obtain ⟨hmode, -, htg, -⟩ := setup_eq_iff.mp ((sameSetup_derive p s).2 q)
    exact trueWanted_derive p (h.outer q r hq (hmode ▸ hm) (htg ▸ htarget) hr)
  galleries := by
    rw [← h.galleries]
    rcases hx with rfl | hw
    · exact derive_galleries_of_empty h.empty
    · rw [derive_without_demand hw]

theorem Quiet.forEach_derive {ps : List ProgNo} (h : Quiet n G s)
    (hps : ∀ x ∈ ps, tourOf x = n ∨ TrueWanted x s) : Quiet n G (forEach ps Machine.derive s) := by
  refine (forEach_keeps_mem (P := fun t => Quiet n G t ∧ ∀ x ∈ ps, tourOf x = n ∨ TrueWanted x t) ps
    (fun x hx t ht => ?_) s ⟨h, hps⟩).1
  exact ⟨ht.1.derive (ht.2 x hx), fun y hy => (ht.2 y hy).imp_right (trueWanted_derive x)⟩

theorem Quiet.rederive {ps : List ProgNo} (h : Quiet n G s) (hps : ∀ x ∈ ps, tourOf x = n) :
    Quiet n G (rederive ps s) := by
  refine h.forEach_derive fun x hx => ?_
  rcases List.mem_append.mp hx with hx | hx
  · exact .inl (hps x hx)
  · obtain ⟨q, hq, ht⟩ := List.mem_filterMap.mp hx
    by_cases hn : tourOf x = n
    · exact .inl hn
    · split at ht
      · next hm => exact .inr (h.outer q x (hps q hq) hm ht hn)
      · cases ht

/-- A receiver counted off a program of the tour (R131 step 2). -/
theorem Quiet.uncountKeyed (h : Quiet n G s) (hp : tourOf p = n) : Quiet n G (uncountKeyed p s) := by
  have hset : Quiet n G (s.modProgram p fun r => { r with keyed := r.keyed - 1 }) :=
    { closed := h.closed
      empty := h.empty
      outer := fun q r hq hm ht hr => by
        have hne : p ≠ r := fun e => hr (e ▸ hp)
        have hold : s.programs[q].mode = .linked ∧ s.programs[q].target = some r := by
          by_cases hqp : p = q
          · subst hqp
            rw [modProgram_programs_self] at hm ht
            exact ⟨hm, ht⟩
          · rw [modProgram_programs_ne _ hqp] at hm ht
            exact ⟨hm, ht⟩
        have hw := h.outer q r hq hold.1 hold.2 hr
        rw [TrueWanted, isWanted, isMixable, receiverSum] at hw ⊢
        rw [modProgram_programs_ne _ hne]
        exact hw
      galleries := h.galleries }
  have hderived : Quiet n G (Machine.rederive [p] (s.modProgram p fun r => { r with keyed := r.keyed - 1 })) :=
    hset.rederive fun x hx => by rw [List.mem_singleton.mp hx]; exact hp
  have htrue : TrueWanted p (Machine.rederive [p] (s.modProgram p fun r => { r with keyed := r.keyed - 1 })) :=
    (settled_forEach_derive _ _ (.inl (List.mem_append_left _ (List.mem_singleton_self p)))).1
  have hnot : ¬ (Machine.rederive [p] (s.modProgram p fun r => { r with keyed := r.keyed - 1 })).programs[p].wanted =
      true := by
    rw [htrue, hderived.not_wanted hp]; decide
  unfold Machine.uncountKeyed changeCounts
  dsimp only
  rw [if_neg hnot]
  exact hderived

theorem closureKeeps_quiet (n : TourNo) (G : Vector Gallery 12) : ClosureKeeps (Quiet n G) where
  note _ _ _ _ hs := hs.of_same rfl rfl rfl
  change _ _ _ _ hs := hs.of_same rfl rfl rfl
  rack _ _ _ hs := hs.of_same rfl rfl rfl
  pool _ _ hs := hs.of_same rfl rfl rfl
  outfits _ _ _ hs := hs.of_same rfl rfl rfl

theorem Quiet.closeFleet (h : Quiet n G s) : Quiet n G (closeFleet n s) :=
  (closureKeeps_quiet n G).closeFleet (fun _ _ hp ht => ht.uncountKeyed hp) s h

end Sys2Proof.Machine
end

section
/-! CLOSE_TOUR (R22, R131): the closure as a whole, and what it is refused for (R151). -/

namespace Sys2Proof.Machine

open Laws

variable {P : State → Prop} {s t u : State} {p q : ProgNo} {n : TourNo} {port : PortNo} {rest : List Request}
  {tag : BitVec 16}

/-! ### What a closure leaves alone -/

/-- What a closure of a tour may change, its record apart. -/
def ClosureFrame (s t : State) : Prop := t = { s with
  programs := t.programs, sources := t.sources, galleries := t.galleries, ports := t.ports
  notices := t.notices, noticeOverflow := t.noticeOverflow, log := t.log, receivers := t.receivers
  pool := t.pool, outfits := t.outfits, racks := t.racks }

theorem ClosureFrame.trans (h : ClosureFrame s t) (h' : ClosureFrame t u) : ClosureFrame s u := by
  rw [ClosureFrame, h', h]

theorem OnlyFollowers.closureFrame (h : OnlyFollowers s t) : ClosureFrame s t := by rw [ClosureFrame, h]

theorem OnlyFollowers.receivers (h : OnlyFollowers s t) : t.receivers = s.receivers := by rw [h]

theorem OnlyFollowers.outfits (h : OnlyFollowers s t) : t.outfits = s.outfits := by rw [h]

theorem closureKeeps_frame (s : State) : ClosureKeeps (ClosureFrame s) where
  note t r f _ h := by rw [ClosureFrame, h]; rfl
  change t r f _ h := by rw [ClosureFrame, h]; rfl
  rack t g f h := by rw [ClosureFrame, h]; rfl
  pool t l h := by rw [ClosureFrame, h]
  outfits t l _ h := by rw [ClosureFrame, h]

theorem closeFleet_frame (n : TourNo) (s : State) : ClosureFrame s (closeFleet n s) :=
  (closureKeeps_frame s).closeFleet
    (fun p t _ h => h.trans (onlyFollowers_changeCounts p _ t).closureFrame) s rfl

theorem closureKeeps_grown (s : State) : ClosureKeeps (Grown s) where
  note _ _ _ _ h := h
  change _ _ _ _ h := h
  rack _ _ _ h := h
  pool _ _ h := h
  outfits _ _ _ h := h

theorem grown_closeFleet (n : TourNo) (s : State) : Grown s (closeFleet n s) :=
  (closureKeeps_grown s).closeFleet (fun p t _ h => (followKeeps_grown s).uncountKeyed p t h) s (Grown.refl s)

/-! ### The sendings at the end (R142) -/

/-- What racks and frames do not change is kept by the sendings. -/
theorem sendKeys_keeps (hrack : ∀ (s : State) g f, P s → P (s.modRack g f))
    (hframe : ∀ p f s, P s → P (handFrame p f s)) (s : State) (hs : P s) : P (sendKeys s) := by
  refine forEach_keeps _ (fun g t ht => ?_) s hs
  unfold sendHead
  dsimp only
  split
  · exact ht
  · exact ite_keeps (hrack _ _ _ (hframe _ _ _ ht)) ht

/-- Only racks and what frames and notices change differ. -/
def OnlySent (s t : State) : Prop := t = { s with
  ports := t.ports, notices := t.notices, noticeOverflow := t.noticeOverflow, log := t.log, racks := t.racks }

theorem onlySent_sendKeys (s : State) : OnlySent s (sendKeys s) :=
  sendKeys_keeps (P := OnlySent s) (fun t g f h => by rw [OnlySent, h]; rfl)
    (fun p f t h => by rw [OnlySent, handFrame_eq, h]) s rfl

theorem grown_sendKeys (s : State) : Grown s (sendKeys s) :=
  sendKeys_keeps (fun _ _ _ h => h) (followKeeps_grown s).frame s (Grown.refl s)

/-! ### The demand ends (R22) -/

/-- Operations that agree on the states they meet agree one after the other. -/
theorem forEach_congr_of_keeps {α : Type} {f g : α → State → State} (hkeep : ∀ x s, P s → P (g x s))
    (heq : ∀ x s, P s → f x s = g x s) (xs : List α) (s : State) (hs : P s) : forEach xs f s = forEach xs g s := by
  induction xs generalizing s with
  | nil => rfl
  | cons x xs ih => rw [forEach_cons, forEach_cons, heq x s hs, ih _ (hkeep x s hs)]

theorem onlyDemands_ends (ps : List ProgNo) (g : PortNo) (h : OnlyDemands s t) :
    OnlyDemands s (forEach ps (fun q => demandEnd q g) t) :=
  forEach_keeps (P := OnlyDemands s) _ (fun q u hu => (demandKeeps_onlyDemands s).demandEnd q g u hu) t h

/-- The wanted programs are those before the first demand end. -/
theorem closeDemand_eq (n : TourNo) (s : State) : closeDemand n s =
    forEach s.tours[n].gallerySet (fun g t => forEach (wantedOf s n) (fun q => demandEnd q g) t) s := by
  refine forEach_congr_of_keeps (P := OnlyDemands s) (fun g t ht => onlyDemands_ends _ g ht) (fun g t ht => ?_) _ s rfl
  have hw : wantedPrograms t n = wantedOf s n := by
    rw [wantedPrograms, wantedOf, progsOf, fins_eq_finRange, ht]
  rw [hw]

theorem onlyDemands_closeDemand (n : TourNo) (s : State) : OnlyDemands s (closeDemand n s) := by
  rw [closeDemand_eq]
  exact forEach_keeps (P := OnlyDemands s) _ (fun g t ht => onlyDemands_ends _ g ht) s rfl

theorem grown_closeDemand (n : TourNo) (s : State) : Grown s (closeDemand n s) := by
  rw [closeDemand_eq]
  exact forEach_keeps (P := Grown s) _ (fun g t ht => forEach_keeps (P := Grown s) _
    (fun q u hu => (followKeeps_grown s).demandEnd q g u hu) t ht) s (Grown.refl s)

/-! ### The tour's record closed, and the overlays (R22, R70) -/

/-- The record of a tour as it is closed. -/
def Tour.ended (r : Tour) : Tour :=
  { r with state := .closed, gallerySet := [], guideFrozen := false, generation := r.generation + 1 }

/-- The hub before the fleet's part of the closure. -/
def tourEnded (n : TourNo) (s : State) : State := chooseTourOverlays n ((closeDemand n s).modTour n Tour.ended)

theorem closeTour_eq (n : TourNo) (s : State) :
    closeTour n s = rederive (progsOf n) (closeFleet n (tourEnded n s)) := rfl

theorem standAlike_chooseTourOverlays (n : TourNo) (s : State) : StandAlike s (chooseTourOverlays n s) :=
  forEach_keeps (P := StandAlike s) _ (fun p t ht => ht.trans (standAlike_chooseOverlay p t)) s (StandAlike.refl s)

theorem onlyFollowers_chooseTourOverlays (n : TourNo) (s : State) : OnlyFollowers s (chooseTourOverlays n s) :=
  (mixKeeps_onlyFollowers s).chooseTourOverlays n s rfl

theorem chooseTourOverlays_galleries (n : TourNo) (s : State) : (chooseTourOverlays n s).galleries = s.galleries :=
  (mixKeeps_of_ignores (π := State.galleries) (fun _ _ _ _ _ _ _ => rfl) s.galleries).chooseTourOverlays n s rfl

theorem grown_tourEnded (n : TourNo) (s : State) : Grown s (tourEnded n s) :=
  (followKeeps_grown s).chooseTourOverlays n _ (grown_closeDemand n s)

theorem tourEnded_frame (n : TourNo) (s : State) :
    ClosureFrame { s with tours := s.tours.set n s.tours[n].ended } (tourEnded n s) := by
  refine ClosureFrame.trans ?_ (onlyFollowers_chooseTourOverlays n _).closureFrame
  rw [ClosureFrame, onlyDemands_closeDemand n s]
  rfl

/-- With true targets in other tours, the closed tour hands on no demand more. -/
theorem quiet_tourEnded (h : ∀ q r : ProgNo, tourOf q = n → s.programs[q].mode = .linked →
    s.programs[q].target = some r → tourOf r ≠ n → TrueWanted r s) :
    Quiet n (closeDemand n s).galleries (tourEnded n s) := by
  have hd := onlyDemands_closeDemand n s
  have hended : Quiet n (closeDemand n s).galleries ((closeDemand n s).modTour n Tour.ended) :=
    { closed := by rw [modTour_tours_self]; rfl
      empty := by rw [modTour_tours_self]; rfl
      outer := fun q r hq hm ht hr => by
        have hp : ((closeDemand n s).modTour n Tour.ended).programs = s.programs := by rw [hd]; rfl
        have htour : ((closeDemand n s).modTour n Tour.ended).tours[tourOf r] = s.tours[tourOf r] := by
          rw [modTour_tours_ne _ (Ne.symm hr), hd]
        rw [hp] at hm ht
        have hw := h q r hq hm ht hr
        rw [TrueWanted, isWanted, isMixable, receiverSum] at hw ⊢
        rw [hp, htour]
        exact hw
      galleries := rfl }
  exact hended.of_standAlike (standAlike_chooseTourOverlays n _) (onlyFollowers_chooseTourOverlays n _).tours
    (chooseTourOverlays_galleries n _)

/-! ### The closure (R22, R131) -/

theorem onlyFollowers_rederive (ps : List ProgNo) (s : State) : OnlyFollowers s (rederive ps s) :=
  onlyFollowers_forEach_derive _ s

theorem closeTour_frame (n : TourNo) (s : State) :
    ClosureFrame { s with tours := s.tours.set n s.tours[n].ended } (closeTour n s) := by
  rw [closeTour_eq]
  exact ((tourEnded_frame n s).trans (closeFleet_frame n _)).trans (onlyFollowers_rederive _ _).closureFrame

theorem grown_closeTour (n : TourNo) (s : State) : Grown s (closeTour n s) := by
  rw [closeTour_eq]
  exact (grown_tourEnded n s).trans ((grown_closeFleet n _).trans
    ((followKeeps_grown _).rederive _ _ (Grown.refl _)))

theorem tourOf_progOf (n : TourNo) (l : LangSlot) : tourOf (progOf n l) = n := by
  refine Fin.ext ?_
  simp only [progOf, tourOf]
  omega

theorem closeTour_galleries (h : ∀ q r : ProgNo, tourOf q = n → s.programs[q].mode = .linked →
    s.programs[q].target = some r → tourOf r ≠ n → TrueWanted r s) :
    (closeTour n s).galleries = (closeDemand n s).galleries := by
  rw [closeTour_eq]
  refine ((quiet_tourEnded h).closeFleet.rederive fun x hx => ?_).galleries
  obtain ⟨l, -, rfl⟩ := List.mem_map.mp hx
  exact tourOf_progOf n l

theorem closeTour_tours (n : TourNo) (s : State) : (closeTour n s).tours = s.tours.set n s.tours[n].ended := by
  rw [closeTour_frame]

/-- The programs of the tour are at rest and not wanted (R26). -/
theorem closeTour_program (n : TourNo) (l : LangSlot) (s : State) :
    (closeTour n s).programs[progOf n l].state ≠ .active ∧ (closeTour n s).programs[progOf n l].wanted = false := by
  have hl : progOf n l ∈ progsOf n := List.mem_map.mpr ⟨l, mem_fins l, rfl⟩
  have hsettled : Settled (closeTour n s) (progOf n l) := by
    rw [closeTour_eq]
    exact settled_forEach_derive _ _ (.inl (List.mem_append_left _ hl))
  have hclosed : (closeTour n s).tours[tourOf (progOf n l)].state ≠ .opened := by
    simp [closeTour_tours, tourOf_progOf, Tour.ended]
  obtain ⟨hw, ha, -⟩ := hsettled
  refine ⟨fun h => hclosed (toBeActive_iff.mp (ha.mp h)).1.1, ?_⟩
  rw [hw, Bool.eq_false_iff]
  exact fun h => hclosed (isWanted_iff.mp h).1.1

theorem closeTour_outfits (n : TourNo) (s : State) : ∀ o ∈ (closeTour n s).outfits, o.tour ≠ n := by
  rw [closeTour_eq, (onlyFollowers_rederive _ _).outfits]
  exact outfits_closeFleet n _

theorem closeTour_not_standsOn {st : RecState} (hst : st = .keyed ∨ st = .issued) (n : TourNo) (r : RecNo)
    (s : State) : ¬ StandsOn st n (closeTour n s) r := by
  rw [closeTour_eq, standsOn_congr (s := closeFleet n (tourEnded n s)) (by rw [(onlyFollowers_rederive _ _).receivers])]
  exact not_standsOn_closeFleet hst n r _

/-! ### CLOSE_TOUR served (R22, R151) -/

/-- The operands of CLOSE_TOUR. -/
def closeOperands (x v : Nat) : List Byte := put8 x ++ put8 v

theorem byteAt_closeOperands {x v : Nat} (hx : x < 256) (hv : v < 256) :
    byteAt (closeOperands x v) 0 = x ∧ byteAt (closeOperands x v) 1 = v :=
  ⟨byteAt_put8 x (put8 v) hx, byteAt_put8 v [] hv⟩

theorem formOk_closeOperands {x v : Nat} (hx : x < 256) (hv : v < 256) :
    formOk 2 (some 1) (requestPayload tag 5 (closeOperands x v)) = (v == 0) := by
  simp only [formOk, headerOk_requestPayload, operandsOf_requestPayload, (byteAt_closeOperands hx hv).2]
  rfl

/-- What serving CLOSE_TOUR with this tour gives, once the reserved byte is zero (R151). -/
theorem serveClose_of_zero {x : Nat} (hx : x < 256) : serveClose port (requestPayload tag 5 (closeOperands x 0)) s =
    match toFin 24 x with
    | none => refuse .noSuch s
    | some t =>
      if s.tours[t].state = .closed then refuse .refusedState s
      else done (entryResult (sendKeys (closeTour t s)) .tour t.val) (sendKeys (closeTour t s)) := by
  have h0 := (byteAt_closeOperands hx (show 0 < 256 by decide)).1
  simp only [serveClose, formOk_closeOperands hx (show 0 < 256 by decide), operandsOf_requestPayload, h0]
  rfl

theorem exec_closeTour_refused {x v : Nat} {status : Status}
    (hs : Serving s port (requestPayload tag 5 (closeOperands x v)) rest)
    (h : serveClose port (requestPayload tag 5 (closeOperands x v)) { s with requests := rest } =
      refuse status { s with requests := rest }) :
    AnsweredAlone .closeTour s port rest (.response tag 5 status []) := by
  refine (serveHead_of_serving hs rfl).trans ?_
  rw [h]
  rfl

theorem serveClose_taken (ho : s.tours[n].state = .opened) :
    serveClose port (requestPayload tag 5 (closeOperands n.val 0)) s =
      done (entryResult (sendKeys (closeTour n s)) .tour n.val) (sendKeys (closeTour n s)) := by
  have hn := n.isLt
  have hc : ¬ s.tours[n].state = .closed := by rw [ho]; decide
  rw [serveClose_of_zero (by omega)]
  simp only [toFin_val]
  exact if_neg hc

/-- CLOSE_TOUR of an OPEN tour closes it, and answers with its entry. -/
theorem exec_closeTour_taken (hs : Serving s port (requestPayload tag 5 (closeOperands n.val 0)) rest)
    (ho : s.tours[n].state = .opened) (hu : u = sendKeys (closeTour n { s with requests := rest })) :
    exec .closeTour s = .next (respond port (.response tag 5 .ok (entryResult u .tour n.val)) u) := by
  have hserve := serveClose_taken (port := port) (tag := tag) (s := { s with requests := rest }) ho
  rw [← hu] at hserve
  refine (serveHead_of_serving hs rfl).trans ?_
  rw [hserve]
  rfl

/-- What a closure brings about is not changed as key orders are sent at its end. -/
theorem OnlySent.closure (h : OnlySent s t) : t.tours = s.tours ∧ t.galleries = s.galleries ∧
    t.programs = s.programs ∧ t.outfits = s.outfits ∧ t.receivers = s.receivers := by
  rw [h]; exact ⟨rfl, rfl, rfl, rfl, rfl⟩

theorem OnlySent.closureFrame (h : OnlySent s t) : ClosureFrame s t := by rw [ClosureFrame, h]

/-- Settles O26: the demand ends come first and are the last that touch a carrier (`Quiet`); tours, programs, orders
and receivers by the lemma of each part of the closure; each refusal by the operand or the state that brings it
about. -/
theorem closeTourClosesTheTour : Obligations.CloseTourClosesTheTour := by
  unfold Obligations.CloseTourClosesTheTour
  refine ⟨fun s port rest tag n hs ho => ?_, fun s port rest tag x v hx hv hs => ?_⟩
  · obtain ⟨w, hw⟩ : ∃ w, w = closeTour n { s with requests := rest } := ⟨_, rfl⟩
    obtain ⟨u, hu⟩ : ∃ u, u = sendKeys w := ⟨_, rfl⟩
    have hexec := exec_closeTour_taken hs ho (hw ▸ hu)
    have hsent : OnlySent w u := hu ▸ onlySent_sendKeys w
    obtain ⟨htours, hgalleries, hprograms, houtfits, hreceivers⟩ := hsent.closure
    have hframe := (hw ▸ closeTour_frame n { s with requests := rest } : ClosureFrame _ w).trans hsent.closureFrame
    obtain ⟨htrim, hports, hnotices⟩ := (hw ▸ grown_closeTour n { s with requests := rest } : Grown _ w).trans
      (hu ▸ grown_sendKeys w)
    have hclosed : u.tours = s.tours.set n s.tours[n].ended := by
      rw [htours, hw]
      exact closeTour_tours n { s with requests := rest }
    refine ⟨u, hexec, hclosed, fun htrue => ?_, fun l => ?_, ?_, fun r d hd hst hm => ?_, htrim, hports, hnotices, ?_⟩
    · have hends := closeTour_galleries (n := n) (s := { s with requests := rest })
        fun q r hq hm ht hr => Bool.eq_iff_iff.mpr (htrue q r hq hm ht hr)
      rw [hgalleries, hw, hends, closeDemand_eq]
      rfl
    · rw [hprograms, hw]
      exact closeTour_program n l _
    · rw [houtfits, hw]
      exact closeTour_outfits n _
    · rw [hreceivers, hw] at hd
      rcases hst with hst | hst
      · exact closeTour_not_standsOn (.inl rfl) n r _ ⟨d, hd, hst, hm⟩
      · exact closeTour_not_standsOn (.inr rfl) n r _ ⟨d, hd, hst, hm⟩
    · rw [hclosed]
      exact hframe
  · have hanswer {status : Status} (h : serveClose port (requestPayload tag 5 (closeOperands x v))
        { s with requests := rest } = refuse status { s with requests := rest }) := exec_closeTour_refused hs h
    refine ⟨fun h => hanswer ?_, fun h h' => hanswer ?_, fun n h hn hst => hanswer ?_⟩
    · have hf : (v == 0) = false := by simpa using h
      simp only [serveClose, formOk_closeOperands hx hv, hf]
      rfl
    · subst h
      have hnone : toFin 24 x = none := dif_neg (by omega)
      rw [serveClose_of_zero hx, hnone]
    · subst h hn
      rw [serveClose_of_zero hx, toFin_val]
      exact if_pos hst

end Sys2Proof.Machine
end

section
/-! The choice of overlays: what it leaves alone, and the order of R69; and the deadlines of an announcement (R67,
R68). -/

namespace Sys2Proof.Machine

open Laws

variable {s t u : State} {p q : ProgNo} {n m : AnnNo} {a b : Announcement}

/-! ### What a choice of overlays leaves alone (R70) -/

/-- Only programs and sources differ: overlays of programs, and oldest entries of frame stores (R70). -/
def OnlyOverlays (s t : State) : Prop :=
  t = { s with programs := t.programs, sources := t.sources } ∧ OverlaysFollow s t

theorem OnlyOverlays.refl (s : State) : OnlyOverlays s s := ⟨rfl, SourcesTrimmed.refl s, fun _ => rfl⟩

theorem OnlyOverlays.trans (h : OnlyOverlays s t) (h' : OnlyOverlays t u) : OnlyOverlays s u := by
  obtain ⟨he, ht, hp⟩ := h
  obtain ⟨he', ht', hp'⟩ := h'
  exact ⟨by rw [he', he], ht.trans ht', fun q => by rw [hp' q, hp q]⟩

theorem onlyOverlays_applyRemovalTo (i : Option SourceSlot) (s : State) : OnlyOverlays s (applyRemovalTo i s) :=
  ⟨(applyRemovalTo_eq i s).trans (by rw [applyRemovalTo_eq]),
    ((followKeeps_grown s).applyRemovalTo i s (Grown.refl s)).1,
    fun q => by rw [applyRemovalTo_eq]⟩

theorem onlyOverlays_modProgram {f : Program → Program}
    (hf : ∀ r, f r = { r with overlayAnn := (f r).overlayAnn, overlay := (f r).overlay }) (p : ProgNo) (s : State) :
    OnlyOverlays s (s.modProgram p f) := by
  refine ⟨rfl, SourcesTrimmed.refl s, fun q => ?_⟩
  by_cases h : p = q
  · subst h
    rw [modProgram_programs_self]
    exact hf _
  · rw [modProgram_programs_ne _ h]

theorem onlyOverlays_chooseOverlay (p : ProgNo) (s : State) : OnlyOverlays s (chooseOverlay p s) := by
  unfold chooseOverlay
  dsimp only
  split
  · exact OnlyOverlays.refl s
  · split
    · exact OnlyOverlays.refl s
    · exact (onlyOverlays_modProgram (fun _ => rfl) p s).trans (onlyOverlays_applyRemovalTo _ _)

theorem onlyOverlays_chooseAllOverlays (s : State) : OnlyOverlays s (chooseAllOverlays s) :=
  forEach_keeps (P := OnlyOverlays s) _ (fun p _ h => h.trans (onlyOverlays_chooseOverlay p _)) s (OnlyOverlays.refl s)

/-! ### The announcement that overlays a program (R69) -/

theorem applies_iff : applies s p a = true ↔ a.state = .on ∧ ∃ z : ZoneNo, a.zones.getLsbD z.val = true ∧
    ∃ g ∈ s.tours[tourOf p].gallerySet, s.zones[z].members.getLsbD g.val = true := by
  simp only [applies, announcedPorts, Bool.and_eq_true, beq_iff_eq, List.any_eq_true, List.contains_eq_mem,
    decide_eq_true_eq, List.mem_filter, mem_fins, true_and]
  exact and_congr_right fun _ => ⟨fun ⟨g, hg, z, hz, hm⟩ => ⟨z, hz, g, hg, hm⟩,
    fun ⟨z, hz, g, hg, hm⟩ => ⟨g, hg, z, hz, hm⟩⟩

theorem mem_applying : (n, a) ∈ applying s p ↔ AppliesTo s p n a := by
  rw [AppliesTo, ← applies_iff]
  simp only [applying, List.mem_filterMap, mem_fins, true_and]
  constructor
  · rintro ⟨m, hm⟩
    split at hm
    · cases hm
    · next b hb =>
      split at hm
      · next happ =>
        cases hm
        exact ⟨hb, happ⟩
      · cases hm
  · rintro ⟨hn, happ⟩
    exact ⟨n, by simp only [hn, happ, if_true]⟩

theorem chosenOverlay_eq_none : chosenOverlay s p = none ↔ ∀ m b, ¬ AppliesTo s p m b := by
  have hbest : chosenOverlay s p = none ↔ applying s p = [] := by
    rw [chosenOverlay, Option.map_eq_none_iff]
    cases applying s p <;> simp [bestOf]
  rw [hbest, List.eq_nil_iff_forall_not_mem]
  exact ⟨fun h m b hb => h (m, b) (mem_applying.mpr hb), fun h x hx => h x.1 x.2 (mem_applying.mp hx)⟩

/-- The record chosen is the best of those that apply. -/
theorem chosenOverlay_eq_some (h : chosenOverlay s p = some n) :
    ∃ a, bestOf overlayBefore (applying s p) = some (n, a) ∧ AppliesTo s p n a := by
  obtain ⟨⟨m, a⟩, hbest, rfl⟩ := Option.map_eq_some_iff.mp h
  exact ⟨a, hbest, mem_applying.mp (FollowKeeps.bestOf_mem _ _ _ hbest)⟩

/-- The best member stands in a transitive relation to every member, if the choice between any two of them goes by that
relation. -/
theorem bestOf_dominates {α : Type} {before : α → α → Bool} {R : α → α → Prop} {l : List α} {x : α}
    (htrans : ∀ x ∈ l, ∀ y ∈ l, ∀ z ∈ l, R x y → R y z → R x z)
    (hbefore : ∀ x ∈ l, ∀ y ∈ l, before y x = true → R y x)
    (hnot : ∀ x ∈ l, ∀ y ∈ l, before y x = false → R x y)
    (hx : bestOf before l = some x) : ∀ y ∈ l, R x y := by
  have hrefl : ∀ z ∈ l, R z z := fun z hz => (Bool.eq_false_or_eq_true (before z z)).elim
    (hbefore z hz z hz) (hnot z hz z hz)
  have hfold (ys : List α) : ∀ b ∈ l, ys ⊆ l →
      let r := ys.foldl (fun b y => if before y b then y else b) b
      r ∈ l ∧ R r b ∧ ∀ y ∈ ys, R r y := by
    induction ys with
    | nil => exact fun b hb _ => ⟨hb, hrefl b hb, by simp⟩
    | cons y ys ih =>
      intro b hb hys
      obtain ⟨hy, hys⟩ := List.cons_subset.mp hys
      have hstep : ∀ c ∈ l, R c b → R c y → let r := ys.foldl (fun b y => if before y b then y else b) c
          r ∈ l ∧ R r b ∧ ∀ z ∈ y :: ys, R r z := by
        intro c hc hcb hcy
        obtain ⟨hr, hrc, hall⟩ := ih c hc hys
        exact ⟨hr, htrans _ hr _ hc _ hb hrc hcb,
          List.forall_mem_cons.mpr ⟨htrans _ hr _ hc _ hy hrc hcy, hall⟩⟩
      rw [List.foldl_cons]
      split
      · next hc => exact hstep y hy (hbefore b hb y hy hc) (hrefl y hy)
      · next hc => exact hstep b hb (hrefl b hb) (hnot b hb y hy (Bool.eq_false_iff.mpr hc))
  cases l with
  | nil => cases hx
  | cons z zs =>
    obtain ⟨-, hz, hzs⟩ := hfold zs z List.mem_cons_self (List.subset_cons_self z zs)
    cases hx
    exact List.forall_mem_cons.mpr ⟨hz, hzs⟩

/-- No record that applies has a higher priority than the one chosen (R69). -/
theorem priority_le_of_best {x y : AnnNo × Announcement} (h : bestOf overlayBefore (applying s p) = some x)
    (hy : y ∈ applying s p) : y.2.priority ≤ x.2.priority := by
  refine bestOf_dominates (R := fun x y => y.2.priority ≤ x.2.priority) (fun _ _ _ _ _ _ h h' => h'.trans h)
    (fun x _ y _ hxy => ?_) (fun x _ y _ hxy => ?_) h y hy
  all_goals
    unfold overlayBefore at hxy
    split at hxy
    · next hne => simp only [decide_eq_true_eq, decide_eq_false_iff_not] at hxy; omega
    · next heq => exact (not_not.mp heq) ▸ le_rfl

/-! ### Start stamps of the last 2^31 milliseconds (R174) -/

/-- The stamp is there, and less than 2^31 ms old at clock `now` (R174). -/
def Recent (now : Clock) (stamp : Option Clock) : Prop := ∃ c, stamp = some c ∧ (now - c).toNat < 2 ^ 31

/-- Of two stamps less than 2^31 ms old, the earlier is the older one. -/
theorem earlier_iff_older {now x y : Clock} (hx : (now - x).toNat < 2 ^ 31) (hy : (now - y).toNat < 2 ^ 31) :
    earlier x y = true ↔ (now - y).toNat < (now - x).toNat := by
  simp only [earlier, Bool.or_eq_true, Bool.and_eq_true, decide_eq_true_eq, beq_iff_eq]
  simp only [BitVec.toNat_sub] at *
  omega

/-- How long ago the announcement started at clock `now`, in milliseconds. -/
def Announcement.age (now : Clock) (a : Announcement) : Nat := a.startStamp.elim 0 fun c => (now - c).toNat

theorem stampFirst_iff {now : Clock} (ha : Recent now a.startStamp) (hb : Recent now b.startStamp) :
    StampFirst a.startStamp b.startStamp ↔ b.age now < a.age now := by
  obtain ⟨x, hx, hxn⟩ := ha
  obtain ⟨y, hy, hyn⟩ := hb
  simp only [StampFirst, Announcement.age, hx, hy, Option.some.injEq, Option.elim_some, exists_eq_left']
  exact earlier_iff_older hxn hyn

theorem startStamp_eq_iff {now : Clock} (ha : Recent now a.startStamp) (hb : Recent now b.startStamp) :
    a.startStamp = b.startStamp ↔ a.age now = b.age now := by
  obtain ⟨x, hx, -⟩ := ha
  obtain ⟨y, hy, -⟩ := hb
  simp only [Announcement.age, hx, hy, Option.some.injEq, Option.elim_some]
  bv_omega

/-- The rank of R69 goes by priority, age and record number, in that order. -/
theorem rankedFirst_iff {now : Clock} (ha : Recent now a.startStamp) (hb : Recent now b.startStamp) :
    RankedFirst n a m b ↔ b.priority.val < a.priority.val ∨ (a.priority.val = b.priority.val ∧
      (b.age now < a.age now ∨ (a.age now = b.age now ∧ n.val < m.val))) := by
  rw [RankedFirst, stampFirst_iff ha hb, startStamp_eq_iff ha hb, Fin.lt_def, Fin.lt_def, Fin.ext_iff]

/-- Of two records with stamps less than 2^31 ms old, the model puts the one of higher rank first (R69). -/
theorem overlayBefore_iff {now : Clock} {x y : AnnNo × Announcement} (hx : Recent now x.2.startStamp)
    (hy : Recent now y.2.startStamp) : overlayBefore x y = true ↔ RankedFirst x.1 x.2 y.1 y.2 := by
  unfold overlayBefore RankedFirst
  split
  · next h => simp [h]
  · next h =>
    have hp : x.2.priority = y.2.priority := not_not.mp h
    obtain ⟨c, hc, -⟩ := hx
    obtain ⟨d, hd, -⟩ := hy
    by_cases hcd : c = d
    · have hearlier : earlier d d = false := Bool.eq_false_iff.mpr fun h => (earlier_asymm h).2 rfl
      simp [hp, hc, hd, hcd, StampFirst, hearlier]
    · simp [hp, hc, hd, hcd, StampFirst]

theorem AppliesTo.unique (h : AppliesTo s p n a) (h' : AppliesTo s p n b) : a = b := by
  obtain ⟨ha, -⟩ := h
  obtain ⟨hb, -⟩ := h'
  exact Option.some.inj (ha.symm.trans hb)

/-- The record chosen is ranked before every other that applies, when no stamp is older than 2^31 ms (R69). -/
theorem rankedFirst_of_best (hbest : bestOf overlayBefore (applying s p) = some (n, a))
    (hrecent : ∀ m b, AppliesTo s p m b → Recent s.clock b.startStamp) (hb : AppliesTo s p m b) (hne : m ≠ n) :
    RankedFirst n a m b := by
  have hstamp : ∀ x ∈ applying s p, Recent s.clock x.2.startStamp := fun x hx => hrecent _ _ (mem_applying.mp hx)
  have hdom := bestOf_dominates (R := fun x y => x.1 = y.1 ∧ x.2 = y.2 ∨ RankedFirst x.1 x.2 y.1 y.2)
    (fun x hx y hy z hz => ?_) (fun x hx y hy h => ?_)
    (fun x hx y hy h => ?_) hbest _ (mem_applying.mpr hb)
  · exact hdom.resolve_left fun h => hne h.1.symm
  · rw [rankedFirst_iff (hstamp x hx) (hstamp y hy), rankedFirst_iff (hstamp y hy) (hstamp z hz),
      rankedFirst_iff (hstamp x hx) (hstamp z hz)]
    rintro (⟨hn, ha⟩ | hxy) (⟨hn', ha'⟩ | hyz)
    · exact .inl ⟨hn.trans hn', ha.trans ha'⟩
    · rw [hn, ha]; exact .inr hyz
    · rw [← hn', ← ha']; exact .inr hxy
    · right; omega
  · exact .inr ((overlayBefore_iff (hstamp y hy) (hstamp x hx)).mp h)
  · by_cases hxy : x.1 = y.1
    · exact .inl ⟨hxy, (hxy ▸ mem_applying.mp hx : AppliesTo s p y.1 x.2).unique (mem_applying.mp hy)⟩
    · rw [Bool.eq_false_iff, Ne, overlayBefore_iff (hstamp y hy) (hstamp x hx),
        rankedFirst_iff (hstamp y hy) (hstamp x hx)] at h
      rw [rankedFirst_iff (hstamp x hx) (hstamp y hy)]
      have hne := Fin.val_ne_of_ne hxy
      right; omega

/-! ### The end of an announcement (R68) -/

theorem endAnnouncement_of_waiting (h : s.announcements[n] = some a) (hw : a.state = .waiting) :
    endAnnouncement n s = s.setAnnouncement n none := by
  simp [endAnnouncement, h, hw]

/-- An announcement that ends in ON is PENDING while overlays are chosen, and then its record is freed. -/
theorem endAnnouncement_of_on (h : s.announcements[n] = some a) (ho : a.state = .on) : endAnnouncement n s =
    (chooseAllOverlays (s.setAnnouncement n (some { a with state := .waiting }))).setAnnouncement n none := by
  simp only [endAnnouncement, h, if_pos ho]
  rfl

/-- The record of an announcement that ends is free, and else only overlays and oldest entries differ. -/
theorem endAnnouncement_frame (h : s.announcements[n] = some a) :
    endAnnouncement n s = { s with
      announcements := s.announcements.set n none
      programs := (endAnnouncement n s).programs, sources := (endAnnouncement n s).sources } ∧
    OverlaysFollow s (endAnnouncement n s) := by
  cases hst : a.state with
  | waiting =>
    rw [endAnnouncement_of_waiting h hst]
    exact ⟨rfl, (OnlyOverlays.refl s).2⟩
  | on =>
    rw [endAnnouncement_of_on h hst]
    obtain ⟨hframe, hfollow⟩ := onlyOverlays_chooseAllOverlays
      (s.setAnnouncement n (some { a with state := .waiting }))
    generalize chooseAllOverlays (s.setAnnouncement n (some { a with state := .waiting })) = u at hframe hfollow ⊢
    refine ⟨?_, hfollow⟩
    rw [hframe]
    simp [State.setAnnouncement]

/-- Once an announcement ended in ON, every ACTIVE program has the overlay of R69. -/
theorem overlaidAt_endAnnouncement (h : s.announcements[n] = some a) (ho : a.state = .on) (q : ProgNo) :
    OverlaidAt q (endAnnouncement n s) := by
  rw [endAnnouncement_of_on h ho]
  refine overlaidAt_setAnnouncement_none ?_ (overlaidAt_chooseAllOverlays q _)
  rw [chooseAllOverlays_announcements, setAnnouncement_self]
  rfl

/-- A free record overlays no program. -/
theorem chosenOverlay_ne_of_none (h : s.announcements[n] = none) : chosenOverlay s p ≠ some n := fun hc => by
  obtain ⟨a, -, ha, -⟩ := chosenOverlay_eq_some hc
  exact Option.some_ne_none a (ha.symm.trans h)

/-- Once an announcement ended in ON, it overlays no ACTIVE program, each having the overlay of R69 (R68). -/
theorem overlayAnn_endAnnouncement (h : s.announcements[n] = some a) (ho : a.state = .on) (q : ProgNo)
    (hq : (endAnnouncement n s).programs[q].state = .active) :
    (endAnnouncement n s).programs[q].overlayAnn ≠ some n ∧
      (endAnnouncement n s).programs[q].overlayAnn = chosenOverlay (endAnnouncement n s) q := by
  have hchosen := overlaidAt_endAnnouncement h ho q hq
  have hfree : (endAnnouncement n s).announcements[n] = none := by
    rw [(endAnnouncement_frame h).1]
    simp
  exact ⟨hchosen ▸ chosenOverlay_ne_of_none hfree, hchosen⟩

/-! ### END_ and PENDING_DEADLINE_EXPIRY -/

theorem exec_endDeadlineExpiry (hrun : s.phase = .running) (h : s.announcements[n] = some a) (ho : a.state = .on)
    (hdue : s.due a.endDeadline = true) : exec (.endDeadlineExpiry n) s = .next (endAnnouncement n s) := by
  change execEndDeadlineExpiry n s = _
  rw [execEndDeadlineExpiry, running_of_running s hrun]
  simp only [endExpiry, h, ho, hdue, and_self, if_true]

theorem exec_pendingDeadlineExpiry (hrun : s.phase = .running) (h : s.announcements[n] = some a)
    (hw : a.state = .waiting) (hdue : s.due a.pendingDeadline = true) :
    exec (.pendingDeadlineExpiry n) s = .next (queueNotice .announceDropped (subjectOf a.slot.val) (subjectOf n.val)
      (a.zones.setWidth 16) (s.setAnnouncement n none)) := by
  change execPendingDeadlineExpiry n s = _
  rw [execPendingDeadlineExpiry, running_of_running s hrun]
  simp only [pendingExpiry, h, hw, hdue, and_self, if_true]

/-- Settles O41: the end deadline by what the end of an announcement leaves alone and the overlays it chooses; the
overlay of R69 as the best of the records that apply, by priority alone and, where all stamps are recent, by the whole
order. -/
theorem announcementDeadlinesFreeTheRecord : Obligations.AnnouncementDeadlinesFreeTheRecord := by
  unfold Obligations.AnnouncementDeadlinesFreeTheRecord
  refine ⟨fun s n a hrun h => ⟨fun ho hdue => ?_, fun hw hdue => exec_pendingDeadlineExpiry hrun h hw hdue⟩,
    fun s p => ⟨fun n hn => ?_, chosenOverlay_eq_none⟩⟩
  · obtain ⟨hframe, htrim, hprograms⟩ := endAnnouncement_frame h
    exact ⟨_, exec_endDeadlineExpiry hrun h ho hdue, hframe, htrim, overlayAnn_endAnnouncement h ho, hprograms⟩
  · obtain ⟨a, hbest, ha⟩ := chosenOverlay_eq_some hn
    exact ⟨a, ha, fun m b hb => priority_le_of_best hbest (mem_applying.mpr hb),
      fun hrecent m b hb hne => rankedFirst_of_best hbest hrecent hb hne⟩

end Sys2Proof.Machine
end

section
/-! ANNOUNCE: its operands and answer, and what its three commands do with the record of a slot (R61 to R65). -/

namespace Sys2Proof.Machine

variable {s u : State} {port : PortNo} {rest : List Request} {tag : BitVec 16} {status : Status}
  {n : AnnNo} {a : Announcement} {i : SourceSlot} {o : AnnounceOperands}

/-! ### The record of a slot, and the free record -/

/-- The answer for the lowest number that has one is the answer found. -/
theorem findSome?_fins_eq_some {k : Nat} {α : Type} {f : Fin k → Option α} {j : Fin k} {x : α} (hj : f j = some x)
    (hlt : ∀ l < j, f l = none) : (fins k).findSome? f = some x := by
  have hfind : (fins k).find? (fun l => (f l).isSome) = some j :=
    find?_fins_eq_some (by rw [hj]; rfl) fun l hl => by rw [hlt l hl]; rfl
  obtain ⟨-, front, back, hsplit, hfront⟩ := List.find?_eq_some_iff_append.mp hfind
  exact List.findSome?_eq_some_iff.mpr ⟨front, j, back, hsplit, hj, fun l hl => by simpa using hfront l hl⟩

/-- The record that holds a slot is the lowest-numbered one that names it. -/
theorem announcementOf_eq_some (hn : s.announcements[n] = some a) (hi : a.slot = i)
    (hlt : ∀ (m : AnnNo) (b : Announcement), m < n → s.announcements[m] = some b → b.slot ≠ i) :
    announcementOf s i = some (n, a) := by
  unfold announcementOf
  refine findSome?_fins_eq_some (j := n) ?_ fun m hm => ?_
  · simp only [hn, hi, if_true]
  · split
    · rfl
    · next b hb => exact if_neg (hlt m b hm hb)

theorem announcementOf_eq_none (h : ∀ (m : AnnNo) (b : Announcement), s.announcements[m] = some b → b.slot ≠ i) :
    announcementOf s i = none := by
  refine List.findSome?_eq_none_iff.mpr fun m _ => ?_
  split
  · rfl
  · next b hb => exact if_neg (h m b hb)

theorem freeAnnouncement_eq_some (hn : s.announcements[n] = none) (hlt : ∀ m, m < n → s.announcements[m] ≠ none) :
    freeAnnouncement s = some n :=
  find?_fins_eq_some (by rw [hn]; rfl) fun m hm => by simpa [Option.isSome_iff_ne_none] using hlt m hm

theorem freeAnnouncement_eq_none (h : ∀ m : AnnNo, s.announcements[m] ≠ none) : freeAnnouncement s = none :=
  List.find?_eq_none.mpr fun m _ => by simpa using h m

/-! ### The result of an ANNOUNCE (R65, Table 11-11) -/

theorem announceResult_of_none (h : announcementOf s i = none) :
    announceResult s (some i) = 0xFF :: List.replicate 20 0 := by
  simp only [announceResult, Option.bind_some, h]

theorem announceResult_of_some (h : announcementOf s i = some (n, a)) : announceResult s (some i) =
    put8 n.val ++ put8 (if a.state = .on then 2 else 1) ++ put8 a.slot.val ++ put8 a.zones.toNat ++
      put8 a.priority.val ++ put8 a.levelStep.val ++ put8 a.duckStep.val ++ put16 a.duration ++
      put32 ((a.startStamp.map (·.toNat)).getD 0xFFFFFFFF) ++ put32 ((a.endDeadline.map (·.toNat)).getD 0xFFFFFFFF) ++
      put32 ((a.pendingDeadline.map (·.toNat)).getD 0xFFFFFFFF) := by
  have hcode : a.state.code = if a.state = .on then 2 else 1 := by cases a.state <;> rfl
  simp only [announceResult, Option.bind_some, h, hcode]
  rfl

/-- A slot number that is out of range has no record. -/
theorem announceResult_toFin (s : State) (slot : Nat) : announceResult s (toFin 64 slot) =
    if h : slot < 64 then announceResult s (some ⟨slot, h⟩) else 0xFF :: List.replicate 20 0 := by
  unfold toFin
  split <;> rfl

/-! ### The operands of an ANNOUNCE (R61, Table 11-8) -/

/-- The operand bytes of an ANNOUNCE. -/
def announceBytes (slot flags zones priority level duck duration : Nat) : List Byte :=
  put8 slot ++ put8 flags ++ put8 zones ++ put8 priority ++ put8 level ++ put8 duck ++ put16 duration

section

variable {slot flags zones priority level duck duration : Nat}

theorem announceForm_announceBytes (hf : flags < 4) :
    announceForm (requestPayload tag 8 (announceBytes slot flags zones priority level duck duration)) = true := by
  have hflags : byteAt (announceBytes slot flags zones priority level duck duration) 1 = flags :=
    byteAt_put8 flags (put8 zones ++ put8 priority ++ put8 level ++ put8 duck ++ put16 duration) (by omega)
  have hform : formOk 8 none (requestPayload tag 8
      (announceBytes slot flags zones priority level duck duration)) = true := by
    simp [formOk, announceBytes]
  simp only [announceForm, hform, operandsOf_requestPayload, hflags, hf, decide_true, Bool.and_self]

theorem put16_mod (k : Nat) : put16 (k % 65536) = put16 k := by
  have hhigh : BitVec.ofNat 8 (k % 65536 / 256) = BitVec.ofNat 8 (k / 256) := by
    apply BitVec.eq_of_toNat_eq
    simp only [BitVec.toNat_ofNat]
    omega
  have hlow : BitVec.ofNat 8 (k % 65536) = BitVec.ofNat 8 k := by
    apply BitVec.eq_of_toNat_eq
    simp only [BitVec.toNat_ofNat]
    omega
  rw [put16, put16, hhigh, hlow]

/-- The operands are read as they were laid out. -/
theorem byteAt_announceBytes (hs : slot < 256) (hz : zones < 256) (hp : priority < 256) (hl : level < 256)
    (hk : duck < 256) :
    let bytes := announceBytes slot flags zones priority level duck duration
    byteAt bytes 0 = slot ∧ byteAt bytes 2 = zones ∧ byteAt bytes 3 = priority ∧ byteAt bytes 4 = level ∧
      byteAt bytes 5 = duck ∧ wordAt bytes 6 = duration % 65536 :=
  ⟨byteAt_put8 slot (put8 flags ++ put8 zones ++ put8 priority ++ put8 level ++ put8 duck ++ put16 duration) hs,
    byteAt_put8 zones (put8 priority ++ put8 level ++ put8 duck ++ put16 duration) hz,
    byteAt_put8 priority (put8 level ++ put8 duck ++ put16 duration) hp,
    byteAt_put8 level (put8 duck ++ put16 duration) hl, byteAt_put8 duck (put16 duration) hk,
    (congrArg (wordAt · 0) (put16_mod duration).symm).trans (wordAt_put16 _ [] (Nat.mod_lt _ (by decide)))⟩

theorem byteAt_announceBytes_of_ranges (i : SourceSlot) (flags : Nat) (zones : BitVec 8) (priority : Fin 4)
    (level duck : GainStep) (duration : Nat) :
    let bytes := announceBytes i.val flags zones.toNat priority.val level.val duck.val duration
    byteAt bytes 0 = i.val ∧ byteAt bytes 2 = zones.toNat ∧ byteAt bytes 3 = priority.val ∧
      byteAt bytes 4 = level.val ∧ byteAt bytes 5 = duck.val ∧ wordAt bytes 6 = duration % 65536 :=
  byteAt_announceBytes (by omega) zones.isLt (by omega) (by omega) (by omega)

/-- Operands in their ranges, the duration clamped (R61). -/
theorem announceOperands_of_ranges {zones : BitVec 8} {priority : Fin 4} {level duck : GainStep} :
    announceOperands (requestPayload tag 8
      (announceBytes i.val flags zones.toNat priority.val level.val duck.val duration)) =
      some ⟨i, zones, priority, level, duck, clampDuration (duration % 65536)⟩ := by
  obtain ⟨h0, h2, h3, h4, h5, h6⟩ := byteAt_announceBytes_of_ranges i flags zones priority level duck duration
  simp only [announceOperands, operandsOf_requestPayload, h0, h2, h3, h4, h5, h6, toFin_val, BitVec.ofNat_toNat,
    BitVec.setWidth_eq]

/-- An operand out of its range (R61). -/
theorem announceOperands_eq_none (hs : slot < 256) (hz : zones < 256) (hp : priority < 256) (hl : level < 256)
    (hk : duck < 256) (hbad : 63 < slot ∨ 3 < priority ∨ 15 < level ∨ 15 < duck) :
    announceOperands (requestPayload tag 8 (announceBytes slot flags zones priority level duck duration)) =
      none := by
  obtain ⟨h0, h2, h3, h4, h5, h6⟩ := byteAt_announceBytes (flags := flags) (duration := duration) hs hz hp hl hk
  have hout {k x : Nat} {j : Fin k} (h : toFin k x = some j) : x < k := by
    unfold toFin at h
    split at h
    · assumption
    · cases h
  simp only [announceOperands, operandsOf_requestPayload, h0, h2, h3, h4, h5, h6]
  split
  · next h1 h2 h3 h4 =>
    have hslot := hout h1
    have hprio := hout h2
    have hlevel := hout h3
    have hduck := hout h4
    omega
  · rfl

end

/-! ### The three commands, by their flags (R62, Table 11-8) -/

/-- An ANNOUNCE with neither flag. -/
def isQuery (payload : List Byte) : Bool := isKind 8 payload && !startFlag payload && !stopFlag payload

/-- An ANNOUNCE with the start flag alone. -/
def isStart (payload : List Byte) : Bool := isKind 8 payload && startFlag payload && !stopFlag payload

/-- An ANNOUNCE with the stop flag. -/
def isStop (payload : List Byte) : Bool := isKind 8 payload && stopFlag payload

theorem exec_announceQuery_eq (s : State) :
    exec .announceQuery s = serveHead isQuery (fun _ => serveAnnounce fun _ t => (.ok, t)) s := rfl

theorem exec_announceStart_eq (s : State) :
    exec .announceStart s = serveHead isStart (fun _ => serveAnnounce startAnnouncement) s := rfl

theorem exec_announceStop_eq (s : State) :
    exec .announceStop s = serveHead isStop (fun _ => serveAnnounce stopAnnouncement) s := rfl

section

variable {slot flags zones priority level duck duration : Nat}

/-- Kind and flags are read as they were laid out. -/
theorem flags_announceBytes :
    let payload := requestPayload tag 8 (announceBytes slot flags zones priority level duck duration)
    isKind 8 payload = true ∧ startFlag payload = (BitVec.ofNat 8 flags).getLsbD 0 ∧
      stopFlag payload = (BitVec.ofNat 8 flags).getLsbD 1 := ⟨rfl, rfl, rfl⟩

theorem isQuery_announceBytes (hf : flags = 0) :
    isQuery (requestPayload tag 8 (announceBytes slot flags zones priority level duck duration)) = true := by
  simp only [isQuery, flags_announceBytes, hf]
  decide

theorem isStart_announceBytes (hf : flags = 1) :
    isStart (requestPayload tag 8 (announceBytes slot flags zones priority level duck duration)) = true := by
  simp only [isStart, flags_announceBytes, hf]
  decide

theorem isStop_announceBytes (hf : 2 ≤ flags) (hf' : flags < 4) :
    isStop (requestPayload tag 8 (announceBytes slot flags zones priority level duck duration)) = true := by
  simp only [isStop, flags_announceBytes]
  interval_cases flags <;> decide

end

section

variable {isRow : List Byte → Bool} {act : AnnounceOperands → State → Status × State}

/-- An ANNOUNCE with its operands in range is carried out; the response carries the record of the slot as it then
stands (R65). -/
theorem serveHead_announce {flags duration : Nat} {zones : BitVec 8} {priority : Fin 4} {level duck : GainStep}
    (hs : Serving s port (requestPayload tag 8 (announceBytes i.val flags zones.toNat priority.val level.val duck.val
      duration)) rest)
    (hr : isRow (requestPayload tag 8 (announceBytes i.val flags zones.toNat priority.val level.val duck.val
      duration)) = true)
    (hf : flags < 4) (hact : act ⟨i, zones, priority, level, duck, clampDuration (duration % 65536)⟩
      { s with requests := rest } = (status, u)) :
    serveHead isRow (fun _ => serveAnnounce act) s =
      .next (respond port (.response tag 8 status (announceResult u (some i))) u) := by
  obtain ⟨hslot, -⟩ := byteAt_announceBytes_of_ranges i flags zones priority level duck duration
  refine (serveHead_of_serving hs hr).trans ?_
  simp only [serveAnnounce, announceForm_announceBytes hf, operandsOf_requestPayload, hslot, toFin_val,
    announceOperands_of_ranges, hact]
  rfl

/-- An ANNOUNCE with an operand out of its range is refused RANGE; the response carries the record of the slot (R61,
R65; log entry 27). -/
theorem serveHead_announce_range {slot flags zones priority level duck duration : Nat}
    (hs : Serving s port (requestPayload tag 8 (announceBytes slot flags zones priority level duck duration)) rest)
    (hr : isRow (requestPayload tag 8 (announceBytes slot flags zones priority level duck duration)) = true)
    (hf : flags < 4) (hslot : slot < 256) (hz : zones < 256) (hp : priority < 256) (hl : level < 256) (hk : duck < 256)
    (hbad : 63 < slot ∨ 3 < priority ∨ 15 < level ∨ 15 < duck) :
    serveHead isRow (fun _ => serveAnnounce act) s = .next (respond port
      (.response tag 8 .range (announceResult s (toFin 64 slot))) { s with requests := rest }) := by
  obtain ⟨hzero, -⟩ := byteAt_announceBytes (flags := flags) (duration := duration) hslot hz hp hl hk
  have hnone := announceOperands_eq_none (tag := tag) (flags := flags) (duration := duration) hslot hz hp hl hk hbad
  refine (serveHead_of_serving hs hr).trans ?_
  simp only [serveAnnounce, announceForm_announceBytes hf, operandsOf_requestPayload, hzero, hnone]
  rfl

end

/-! ### A record set, and the overlays that follow (R63, R64) -/

/-- A record that is set, and else only overlays and oldest entries differ. -/
theorem putAnnouncement_frame (n : AnnNo) (a : Announcement) (s : State) : putAnnouncement n a s =
      ({ s with programs := (putAnnouncement n a s).programs, sources := (putAnnouncement n a s).sources }
        ).setAnnouncement n (some a) ∧
    OverlaysFollow s (putAnnouncement n a s) := by
  cases hst : a.state with
  | waiting =>
    have hput : putAnnouncement n a s = s.setAnnouncement n (some a) := by simp [putAnnouncement, hst]
    rw [hput]
    exact ⟨rfl, (OnlyOverlays.refl s).2⟩
  | on =>
    rw [putAnnouncement_of_on hst]
    obtain ⟨hframe, hfollow⟩ := onlyOverlays_chooseAllOverlays (s.setAnnouncement n (some a))
    generalize chooseAllOverlays (s.setAnnouncement n (some a)) = u at hframe hfollow ⊢
    exact ⟨hframe, hfollow⟩

theorem overlaidAt_putAnnouncement (ho : a.state = .on) (q : ProgNo) : OverlaidAt q (putAnnouncement n a s) := by
  rw [putAnnouncement_of_on ho]
  exact overlaidAt_chooseAllOverlays q _

theorem putAnnouncement_of_waiting (hw : a.state = .waiting) :
    putAnnouncement n a s = s.setAnnouncement n (some a) := by
  simp [putAnnouncement, hw]

theorem newAnnouncement_of_live (h : s.sources[o.slot].state = .live) : newAnnouncement s o =
    ⟨o.slot, o.zones, o.priority, o.levelStep, o.duckStep, o.duration, .on,
      some s.clock, some (s.clock + BitVec.ofNat 32 (o.duration * 1000)), none⟩ := if_pos h

theorem newAnnouncement_of_not_live (h : s.sources[o.slot].state ≠ .live) : newAnnouncement s o =
    ⟨o.slot, o.zones, o.priority, o.levelStep, o.duckStep, o.duration, .waiting,
      none, none, some (s.clock + BitVec.ofNat 32 (s.limits.pendingS * 1000))⟩ := if_neg h

theorem renewedAnnouncement_eq (s : State) (o : AnnounceOperands) (b : Announcement) : renewedAnnouncement s o b =
    { b with
      zones := o.zones, priority := o.priority, levelStep := o.levelStep, duckStep := o.duckStep
      duration := o.duration
      endDeadline := if b.state = AnnState.on then some (s.clock + BitVec.ofNat 32 (o.duration * 1000))
        else b.endDeadline } := by
  unfold renewedAnnouncement
  cases b.state <;> rfl

/-! ### Start and stop (R61 to R64, R68) -/

theorem startAnnouncement_of_refused (h : s.sources[o.slot].state = .unused ∨ s.sources[o.slot].role ≠ .announcer) :
    startAnnouncement o s = (.refusedState, s) := if_pos h

section

variable (hu : s.sources[o.slot].state ≠ .unused) (hr : s.sources[o.slot].role = .announcer)
include hu hr

theorem startAnnouncement_of_held (h : announcementOf s o.slot = some (n, a)) :
    startAnnouncement o s = (.ok, renewAnnouncement n o a s) := by
  simp only [startAnnouncement, hu, hr, h, ne_eq, not_true, or_self, if_false]

theorem startAnnouncement_of_free (h : announcementOf s o.slot = none) (hn : freeAnnouncement s = some n) :
    startAnnouncement o s = (.ok, createAnnouncement n o s) := by
  simp only [startAnnouncement, hu, hr, h, hn, ne_eq, not_true, or_self, if_false]

theorem startAnnouncement_of_full (h : announcementOf s o.slot = none) (hn : freeAnnouncement s = none) :
    startAnnouncement o s = (.tableFull, s) := by
  simp only [startAnnouncement, hu, hr, h, hn, ne_eq, not_true, or_self, if_false]

end

theorem stopAnnouncement_of_held (h : announcementOf s o.slot = some (n, a)) :
    stopAnnouncement o s = (.ok, endAnnouncement n s) := by
  simp only [stopAnnouncement, h]

theorem stopAnnouncement_of_none (h : announcementOf s o.slot = none) : stopAnnouncement o s = (.ok, s) := by
  simp only [stopAnnouncement, h]

/-- When the record of a slot ends, no record holds the slot. -/
theorem announcementOf_endAnnouncement (h : s.announcements[n] = some a)
    (hother : ∀ (m : AnnNo) (c : Announcement), m ≠ n → s.announcements[m] = some c → c.slot ≠ i) :
    announcementOf (endAnnouncement n s) i = none := by
  obtain ⟨hframe, -⟩ := endAnnouncement_frame h
  have hrecords := congrArg State.announcements hframe
  refine announcementOf_eq_none fun m c hm => ?_
  rw [hrecords] at hm
  by_cases hmn : n = m
  · subst hmn
    exact absurd ((setAnnouncement_self s n none).symm.trans hm) (by simp)
  · exact hother m c (Ne.symm hmn) ((setAnnouncement_ne s hmn none).symm.trans hm)

/-! ### The three commands carried out -/

section

variable {flags duration : Nat} {zones : BitVec 8} {priority : Fin 4} {level duck : GainStep}
  (hs : Serving s port (requestPayload tag 8 (announceBytes i.val flags zones.toNat priority.val level.val duck.val
    duration)) rest)
include hs

theorem exec_announceStart (hf : flags = 1) (hd : duration < 65536)
    (h : startAnnouncement ⟨i, zones, priority, level, duck, clampDuration duration⟩ { s with requests := rest } =
      (status, u)) :
    exec .announceStart s = .next (respond port (.response tag 8 status (announceResult u (some i))) u) := by
  rw [exec_announceStart_eq]
  exact serveHead_announce hs (isStart_announceBytes hf) (by omega) ((Nat.mod_eq_of_lt hd).symm ▸ h)

theorem exec_announceStop (hf : 2 ≤ flags) (hf' : flags < 4)
    (h : stopAnnouncement ⟨i, zones, priority, level, duck, clampDuration (duration % 65536)⟩
      { s with requests := rest } = (status, u)) :
    exec .announceStop s = .next (respond port (.response tag 8 status (announceResult u (some i))) u) := by
  rw [exec_announceStop_eq]
  exact serveHead_announce hs (isStop_announceBytes hf hf') hf' h

theorem exec_announceQuery (hf : flags = 0) : exec .announceQuery s =
    .next (respond port (.response tag 8 .ok (announceResult s (some i))) { s with requests := rest }) := by
  rw [exec_announceQuery_eq]
  exact serveHead_announce hs (isQuery_announceBytes hf) (by omega) rfl

end

/-- Settles O40: each command carried out by what start, renewal, stop or query does with the record of the slot, and
refused by the operand or the source that brings it about. -/
theorem announceFillsRenewsAndFreesRecords : Obligations.AnnounceFillsRenewsAndFreesRecords := by
  unfold Obligations.AnnounceFillsRenewsAndFreesRecords
  refine ⟨fun s port rest tag i zones priority level duck duration hd hs hu hr => ⟨fun n hn hlt hno => ?_,
      fun n b hn hi hlt => ?_, fun hfull hno => ?_⟩,
    fun s port rest tag i flags zones priority level duck duration hf hs => ⟨fun n b hf0 hn hi hlt => ?_,
      fun hf0 => ?_, fun hf2 hno => ?_, fun n b hf2 hn hi hother => ?_⟩,
    fun s port rest tag slot flags zones priority level duck duration hslot hf hz hp hl hk hd hs => ⟨fun hbad => ?_,
      fun i hi hp' hl' hk' hf1 hbad => ?_⟩⟩
  · have hstart := startAnnouncement_of_free (s := { s with requests := rest })
      (o := ⟨i, zones, priority, level, duck, clampDuration duration⟩) hu hr (announcementOf_eq_none hno)
      (freeAnnouncement_eq_some hn hlt)
    refine ⟨_, exec_announceStart hs rfl hd hstart, ?_⟩
    rw [createAnnouncement]
    obtain ⟨hframe, htrim, hprograms⟩ := putAnnouncement_frame n (newAnnouncement { s with requests := rest }
      ⟨i, zones, priority, level, duck, clampDuration duration⟩) { s with requests := rest }
    refine ⟨htrim, fun hst => ?_, fun hst => ⟨?_, ?_⟩, hprograms⟩
    · rw [newAnnouncement_of_not_live hst]
      exact putAnnouncement_of_waiting rfl
    · rw [newAnnouncement_of_live hst] at hframe ⊢
      exact hframe
    · rw [newAnnouncement_of_live hst]
      exact fun q => overlaidAt_putAnnouncement rfl q
  · have hstart := startAnnouncement_of_held (s := { s with requests := rest })
      (o := ⟨i, zones, priority, level, duck, clampDuration duration⟩) hu hr (announcementOf_eq_some hn hi hlt)
    refine ⟨_, exec_announceStart hs rfl hd hstart, ?_⟩
    have hrecord := renewedAnnouncement_eq { s with requests := rest }
      ⟨i, zones, priority, level, duck, clampDuration duration⟩ b
    have hstate := congrArg Announcement.state hrecord
    rw [renewAnnouncement]
    obtain ⟨hframe, htrim, hprograms⟩ := putAnnouncement_frame n _ { s with requests := rest }
    refine ⟨htrim, hframe.trans (congrArg (fun c => State.setAnnouncement _ n (some c)) hrecord), fun hst => ?_,
      fun hst q => overlaidAt_putAnnouncement (hstate.trans hst) q, hprograms⟩
    rw [putAnnouncement_of_waiting (hstate.trans hst)]
    exact ⟨rfl, rfl⟩
  · have hnone := announcementOf_eq_none (s := { s with requests := rest }) hno
    have hstart := startAnnouncement_of_full (s := { s with requests := rest })
      (o := ⟨i, zones, priority, level, duck, clampDuration duration⟩) hu hr hnone (freeAnnouncement_eq_none hfull)
    have hexec := exec_announceStart hs rfl hd hstart
    rwa [announceResult_of_none hnone] at hexec
  · have hexec := exec_announceQuery hs hf0
    rwa [announceResult_of_some (announcementOf_eq_some hn hi hlt), hi] at hexec
  · exact exec_announceQuery hs hf0
  · have hnone := announcementOf_eq_none (s := { s with requests := rest }) hno
    have hexec := exec_announceStop hs hf2 hf (stopAnnouncement_of_none hnone)
    rwa [announceResult_of_none hnone] at hexec
  · have hn' : ({ s with requests := rest } : State).announcements[n] = some b := hn
    obtain ⟨hframe, htrim, hprograms⟩ := endAnnouncement_frame hn'
    have hexec := exec_announceStop hs hf2 hf
      (stopAnnouncement_of_held (announcementOf_eq_some hn' hi fun m c hm => hother m c hm.ne))
    rw [announceResult_of_none (announcementOf_endAnnouncement hn' hother)] at hexec
    refine ⟨_, hexec, htrim, hframe, fun hst => ?_, fun hst => overlayAnn_endAnnouncement hn' hst, hprograms⟩
    rw [endAnnouncement_of_waiting hn' hst]
    exact ⟨rfl, rfl⟩
  · rw [← announceResult_toFin]
    exact ⟨fun h => (exec_announceQuery_eq s).trans
        (serveHead_announce_range hs (isQuery_announceBytes h) hf hslot hz hp hl hk hbad),
      fun h => (exec_announceStart_eq s).trans
        (serveHead_announce_range hs (isStart_announceBytes h) hf hslot hz hp hl hk hbad),
      fun h => (exec_announceStop_eq s).trans
        (serveHead_announce_range hs (isStop_announceBytes h hf) hf hslot hz hp hl hk hbad)⟩
  · subst hi hf1
    rw [← announceResult_toFin, toFin_val]
    obtain ⟨zones, rfl⟩ : ∃ z : BitVec 8, zones = z.toNat := ⟨BitVec.ofNatLT zones hz, rfl⟩
    exact exec_announceStart (priority := ⟨priority, by omega⟩) (level := ⟨level, by omega⟩)
      (duck := ⟨duck, by omega⟩) hs rfl hd (startAnnouncement_of_refused hbad)

end Sys2Proof.Machine
end

section
/-! A gallery that joins or leaves the set of a tour, as R80 to R84 give it: what its demands leave of the tour's other
programs, and the set, overlays and frames afterwards. -/

namespace Sys2Proof.Machine

open Laws

variable {s t : State} {n : TourNo} {g h : PortNo} {p : ProgNo} {c : CarrierNo} {i : SourceSlot}

/-! ### What the demand of another program leaves (R98, R99, R103, R104) -/

theorem serving_of_servingCarrier {e : Gallery} (hs : servingCarrier e p = some c) :
    e.carriers[c].program = some p ∧ (e.carriers[c].state = .settling ∨ e.carriers[c].state = .live) := by
  have hwith {st : CarrierState} (hc : carrierWith e st p = some c) :
      e.carriers[c].program = some p ∧ e.carriers[c].state = st := by
    have := List.find?_some hc
    simp only [Bool.and_eq_true, beq_iff_eq] at this
    exact this.symm
  unfold servingCarrier at hs
  split at hs
  · next d hd =>
    cases hs
    exact (hwith hd).imp_right .inl
  · exact (hwith hs).imp_right .inr

theorem startSettle_galleries (g : PortNo) (c : CarrierNo) (q : ProgNo) (s : State) :
    ∃ x, (startSettle g c q s).galleries = (s.modCarrier g c fun _ => x).galleries := by
  unfold startSettle
  split
  · exact ⟨_, goLive_galleries g c q s⟩
  · exact ⟨_, rfl⟩

/-- A change of a carrier that does not serve the program leaves it served or waiting. -/
theorem servedOrWaiting_of_modCarrier {x : Carrier} (ht : t.galleries = (s.modCarrier g c fun _ => x).galleries)
    (hc : s.galleries[g].carriers[c].state = .free ∨ s.galleries[g].carriers[c].state = .parked ∨
      s.galleries[g].carriers[c].program ≠ some p) (hs : ServedOrWaiting s p g) : ServedOrWaiting t p g := by
  rcases hs with hs | hs
  · obtain ⟨d, hd⟩ := Option.isSome_iff_exists.mp hs
    obtain ⟨hp, hst⟩ := serving_of_servingCarrier hd
    have hne : c ≠ d := by
      rintro rfl
      rcases hc with hc | hc | hc
      · rw [hc] at hst; simp at hst
      · rw [hc] at hst; simp at hst
      · exact hc hp
    have hv : c.val ≠ d.val := fun e => hne (Fin.ext e)
    have hsame : t.galleries[g].carriers[d] = s.galleries[g].carriers[d] := by
      rw [ht]; simp [State.modCarrier, Vector.getElem_set_ne, hv]
    exact .inl (servingCarrier_isSome_of (c := d) (by rw [hsame, hp]) (by rwa [hsame]))
  · refine .inr ?_
    rw [isWaiting, ht, modCarrier_waitList]
    exact hs

/-- An allocation for another program takes a carrier from it at most by pre-emption, and then it waits (R99). -/
theorem servedOrWaiting_allocate (q : ProgNo) (hs : ServedOrWaiting s p g) : ServedOrWaiting (allocate g q s) p g := by
  unfold allocate
  split
  · next c hc =>
    have := List.find?_some hc
    simp only [Bool.and_eq_true, beq_iff_eq] at this
    exact servedOrWaiting_of_modCarrier (goLive_galleries g c q s) (.inr (.inl this.1)) hs
  · split
    · next c hc =>
      obtain ⟨x, hx⟩ := startSettle_galleries g c q s
      have hfree := List.find?_some (p := fun c : CarrierNo => s.galleries[g].carriers[c].state == .free) hc
      exact servedOrWaiting_of_modCarrier hx (.inl (beq_iff_eq.mp hfree)) hs
    · split
      · next c hc =>
        have hm := (List.mem_filter.mp (FollowKeeps.bestOf_mem _ _ _ hc)).2
        obtain ⟨x, hx⟩ := startSettle_galleries g c q s
        exact servedOrWaiting_of_modCarrier hx (.inr (.inl (beq_iff_eq.mp hm))) hs
      · unfold preemptOrWait
        split
        · exact servedOrWaiting_putWaiting q hs
        · next c o ho =>
          split
          · obtain ⟨d, -, hd⟩ := List.mem_filterMap.mp (FollowKeeps.bestOf_mem _ _ _ ho)
            obtain ⟨r, hr, he⟩ := Option.map_eq_some_iff.mp hd
            cases he
            by_cases hp : o = p
            · subst hp; exact putWaiting_waits g o _
            · obtain ⟨x, hx⟩ := startSettle_galleries g c q s
              refine servedOrWaiting_putWaiting o (servedOrWaiting_of_modCarrier hx (.inr (.inr ?_)) hs)
              rw [hr]
              exact fun e => hp (Option.some.inj e)
          · exact servedOrWaiting_putWaiting q hs

theorem servedOrWaiting_arrival_of_other (q : ProgNo) (hs : ServedOrWaiting s p g) :
    ServedOrWaiting (demandArrival q g s) p g := by
  unfold demandArrival
  split
  · exact hs
  · have he := (carrierEvent_galleries g g (allocate g q) s).1
    exact servedOrWaiting_congr (by rw [he]) (by rw [he]) (servedOrWaiting_allocate q hs)

/-- Arrivals of several programs on one port: each is served or waits there. -/
theorem servedOrWaiting_forEach_programs (ps : List ProgNo) (s : State) (h : p ∈ ps ∨ ServedOrWaiting s p g) :
    ServedOrWaiting (forEach ps (fun q => demandArrival q g) s) p g := by
  induction ps generalizing s with
  | nil => exact h.resolve_left List.not_mem_nil
  | cons q ps ih =>
    refine ih _ ?_
    rcases h with h | h
    · rcases List.mem_cons.mp h with rfl | h
      · exact .inr (demandArrival_serves p g s)
      · exact .inl h
    · exact .inr (servedOrWaiting_arrival_of_other q h)

/-- A demand end puts no program on the wait list. -/
theorem mem_waitList_of_demandEnd (q : ProgNo) {w : Waiter} (hw : w ∈ (demandEnd q g s).galleries[g].waitList) :
    w ∈ s.galleries[g].waitList := by
  unfold demandEnd at hw
  split at hw
  · rw [modGallery_galleries_self] at hw
    exact (List.mem_filter.mp hw).1
  · split at hw
    · exact hw
    · next c _ =>
      rw [(carrierEvent_galleries g g (releaseCarrier g c q) s).1] at hw
      dsimp only at hw
      rw [releaseCarrier_waitList] at hw
      exact List.mem_of_mem_drop hw

/-- Ends of several programs on one port: none of them waits there. -/
theorem not_waiting_forEach_programs (ps : List ProgNo) (s : State)
    (h : p ∈ ps ∨ isWaiting s.galleries[g] p = false) :
    isWaiting (forEach ps (fun q => demandEnd q g) s).galleries[g] p = false := by
  induction ps generalizing s with
  | nil => exact h.resolve_left List.not_mem_nil
  | cons q ps ih =>
    refine ih _ ?_
    rcases h with h | h
    · rcases List.mem_cons.mp h with rfl | h
      · exact .inr (demandEnd_not_waiting p g s)
      · exact .inl h
    · refine .inr ?_
      rw [isWaiting, List.any_eq_false] at h ⊢
      exact fun w hw => h w (mem_waitList_of_demandEnd q hw)

/-! ### The set changed (R82) -/

/-- A demand of a program on a port, of which R82 hands on two kinds: it changes carriers of that port, and what
frames and notices change. -/
structure IsDemand (demand : ProgNo → PortNo → State → State) : Prop where
  keeps : ∀ {P : State → Prop}, DemandKeeps P → ∀ p g s, P s → P (demand p g s)
  others : ∀ {g h : PortNo}, g ≠ h → ∀ p s, (demand p g s).galleries[h] = s.galleries[h]

theorem isDemand_arrival : IsDemand demandArrival :=
  ⟨fun h => h.demandArrival, fun hne => demandArrival_galleries_ne hne⟩

theorem isDemand_end : IsDemand demandEnd := ⟨fun h => h.demandEnd, fun hne => demandEnd_galleries_ne hne⟩

theorem demandKeeps_grown (s : State) : DemandKeeps (Grown s) where
  gallery := (followKeeps_grown s).gallery
  notice := (followKeeps_grown s).notice
  frame := (followKeeps_grown s).frame

theorem wantedPrograms_eq (s : State) (n : TourNo) : wantedPrograms s n = wantedOf s n := by
  rw [wantedPrograms, wantedOf, progsOf, fins_eq_finRange]

theorem mem_wantedOf (hp : tourOf p = n) (hw : s.programs[p].wanted = true) : p ∈ wantedOf s n := by
  rw [← wantedPrograms_eq]
  exact List.mem_filter.mpr ⟨hp ▸ mem_progsOf p, hw⟩

theorem onlyOverlays_chooseTourOverlays (n : TourNo) (s : State) : OnlyOverlays s (chooseTourOverlays n s) :=
  forEach_keeps (P := OnlyOverlays s) _ (fun p _ h => h.trans (onlyOverlays_chooseOverlay p _)) s (OnlyOverlays.refl s)

theorem OnlyDemands.onlyFollowers (h : OnlyDemands s t) : OnlyFollowers s t := by rw [OnlyFollowers, h]

/-- The hub with another set of a tour, before anything follows. -/
def withSet (n : TourNo) (set : List PortNo) (s : State) : State :=
  s.modTour n fun r => { r with gallerySet := set }

theorem grown_withSet (n : TourNo) (set : List PortNo) (s : State) : Grown s (withSet n set s) :=
  ⟨fun _ => ⟨rfl, List.suffix_refl _⟩, fun _ => ⟨rfl, rfl, rfl⟩, List.prefix_refl _⟩

/-- The demands handed on for the wanted programs of a tour. -/
def demandsOf (demand : ProgNo → PortNo → State → State) (n : TourNo) (g : PortNo) (s : State) : State :=
  forEach (wantedOf s n) (fun p => demand p g) s

theorem joinGallery_eq_demands (n : TourNo) (g : PortNo) (s : State) : joinGallery n g s = guideMoved n g .joined
    (chooseTourOverlays n (demandsOf demandArrival n g (withSet n (s.tours[n].gallerySet ++ [g]) s))) := by
  rw [demandsOf, ← wantedPrograms_eq]
  rfl

theorem leaveGallery_eq_demands (n : TourNo) (g : PortNo) (s : State) : leaveGallery n g .left s =
    guideMoved n g .left (chooseTourOverlays n (demandsOf demandEnd n g
      (withSet n (s.tours[n].gallerySet.filter (· ≠ g)) s))) := by
  have hfilter (l : List PortNo) : (l.filter fun x => !(x == g)) = l.filter (· ≠ g) :=
    List.filter_congr fun x _ => by simp [beq_eq_decide]
  rw [demandsOf, ← wantedPrograms_eq, ← hfilter]
  rfl

section
variable {demand : ProgNo → PortNo → State → State} (hd : IsDemand demand)
include hd

theorem onlyDemands_demandsOf (n : TourNo) (g : PortNo) (s : State) : OnlyDemands s (demandsOf demand n g s) :=
  forEach_keeps (P := OnlyDemands s) _ (fun p t ht => hd.keeps (demandKeeps_onlyDemands s) p g t ht) s rfl

theorem grown_demandsOf (n : TourNo) (g : PortNo) (s : State) : Grown s (demandsOf demand n g s) :=
  forEach_keeps (P := Grown s) _ (fun p t ht => hd.keeps (demandKeeps_grown s) p g t ht) s (Grown.refl s)

theorem demandsOf_galleries_ne (hne : h ≠ g) (n : TourNo) (s : State) :
    (demandsOf demand n g s).galleries[h] = s.galleries[h] :=
  forEach_keeps (P := fun t => t.galleries[h] = s.galleries[h]) _
    (fun p t ht => (hd.others hne.symm p t).trans ht) s rfl

/-- The demands are handed on for a set that has changed, and then the overlays of the tour are chosen anew. -/
theorem setBecame_of_demands (s : State) (n : TourNo) (g : PortNo) (set : List PortNo) :
    SetBecame s (chooseTourOverlays n (demandsOf demand n g (withSet n set s))) n g set demand := by
  have honly := onlyDemands_demandsOf hd n g (withSet n set s)
  have hgrown := (grown_withSet n set s).trans (grown_demandsOf hd n g (withSet n set s))
  have hothers (h : PortNo) (hne : h ≠ g) := demandsOf_galleries_ne hd hne n (withSet n set s)
  have hfold : (wantedOf s n).foldl (fun y p => demand p g y)
      { s with tours := s.tours.set n { s.tours[n] with gallerySet := set } } =
        demandsOf demand n g (withSet n set s) := rfl
  unfold SetBecame
  rw [hfold]
  generalize demandsOf demand n g (withSet n set s) = u at *
  obtain ⟨hover, htrim, hprog⟩ := onlyOverlays_chooseTourOverlays n u
  have hlast : Grown u (chooseTourOverlays n u) := (followKeeps_grown u).chooseTourOverlays n u (Grown.refl u)
  have hprograms : u.programs = s.programs := by rw [honly]; rfl
  have htours : (chooseTourOverlays n u).tours = s.tours.set n { s.tours[n] with gallerySet := set } := by
    rw [hover, honly]; rfl
  refine ⟨hover, htours, fun p hp => ?_, fun h hne => ?_, ⟨?_, fun q => ?_⟩, ?_, ?_, ?_⟩
  · exact overlaidAt_forEach_chooseOverlay _ _ (.inl (hp ▸ mem_progsOf p))
  · rw [chooseTourOverlays_galleries, hothers h hne]; rfl
  · exact SourcesTrimmed.trans hgrown.1 htrim
  · rw [← hprograms]; exact hprog q
  · exact PortsKept.trans hgrown.2.1 hlast.2.1
  · exact List.IsPrefix.trans hgrown.2.2 hlast.2.2
  · have hframe := honly.onlyFollowers.trans (onlyFollowers_chooseTourOverlays n u)
    generalize chooseTourOverlays n u = v at *
    rw [htours]
    exact hframe

end

/-! ### A join and a leave (R80 to R84) -/

theorem guideMoved_of_setBecame {v : State} {set : List PortNo} {demand : ProgNo → PortNo → State → State}
    (hv : SetBecame s v n g set demand) (code : MoveCode) : guideMoved n g code v =
      queueNotice .guideMoved (some (BitVec.ofNat 16 n.val)) (some (BitVec.ofNat 16 g.val))
        (BitVec.ofNat 16 (16 * code.value + set.length)) v := by
  obtain ⟨-, htours, -⟩ := hv
  have hset : v.tours[n].gallerySet = set := by rw [htours]; simp
  rw [guideMoved, hset]
  rfl

/-- A gallery that joins has joined as R80, R82 and R84 say. -/
theorem joined_joinGallery (s : State) (n : TourNo) (g : PortNo) : Joined s (joinGallery n g s) n g := by
  have hv := setBecame_of_demands isDemand_arrival s n g (s.tours[n].gallerySet ++ [g])
  refine ⟨_, hv, fun p hp hw => ?_, ?_⟩
  · have hserved : ServedOrWaiting (demandsOf demandArrival n g (withSet n (s.tours[n].gallerySet ++ [g]) s)) p g :=
      servedOrWaiting_forEach_programs _ _ (.inl (mem_wantedOf hp hw))
    rw [ServedOrWaiting, chooseTourOverlays_galleries]
    exact hserved
  · rw [joinGallery_eq_demands, guideMoved_of_setBecame hv, List.length_append]
    rfl

/-- A gallery that leaves has left as R81, R82 and R84 say. -/
theorem leftSet_leaveGallery (s : State) (n : TourNo) (g : PortNo) : LeftSet s (leaveGallery n g .left s) n g := by
  have hv := setBecame_of_demands isDemand_end s n g (s.tours[n].gallerySet.filter (· ≠ g))
  refine ⟨_, hv, fun p hp hw => ?_, ?_⟩
  · rw [chooseTourOverlays_galleries]
    exact not_waiting_forEach_programs _ _ (.inl (mem_wantedOf hp hw))
  · rw [leaveGallery_eq_demands, guideMoved_of_setBecame hv]
    rfl

/-- A leave changes the set of the tour, and what follows. -/
theorem LeftSet.frame (hl : LeftSet s t n g) :
    OnlyFollowers (withSet n (s.tours[n].gallerySet.filter (· ≠ g)) s) t := by
  obtain ⟨v, ⟨-, htours, -, -, -, -, -, hv⟩, -, rfl⟩ := hl
  rw [OnlyFollowers, queueNotice_eq, hv, htours]
  rfl

theorem LeftSet.hearing (hl : LeftSet s t n g) : t.hearing = s.hearing := hl.frame.hearing

theorem LeftSet.tours_self (hl : LeftSet s t n g) :
    t.tours[n] = { s.tours[n] with gallerySet := s.tours[n].gallerySet.filter (· ≠ g) } := by
  rw [hl.frame.tours, withSet, modTour_tours_self]

/-! ### A place, and what comes of a record that is IN or OUT (R80, R81) -/

theorem hasPlace_iff : hasPlace s n = true ↔ HasRoomFor s n := by
  unfold hasPlace HasRoomFor
  rw [Bool.and_eq_true, decide_eq_true_eq]
  refine and_congr_right fun _ => ?_
  cases s.tours[n].guide <;> simp

theorem servedTour_guide (hn : servedTour s i = some n) :
    s.tours[n].state = .opened ∧ s.tours[n].guide = some i := by
  have := List.find?_some hn
  simpa only [Bool.and_eq_true, beq_iff_eq] using this

/-- The gallery of a record that became IN joins, if there is a place and it is no member (R80). -/
theorem cameIn_joinOrWait (i : SourceSlot) (g : PortNo) (s : State) : CameIn i g s (joinOrWait i g s) := by
  unfold joinOrWait
  refine ⟨fun hn => by rw [hn], fun n hn => ?_⟩
  simp only [hn]
  have hcond : (hasPlace s n && !s.tours[n].gallerySet.contains g) = true ↔
      HasRoomFor s n ∧ g ∉ s.tours[n].gallerySet := by
    rw [Bool.and_eq_true, hasPlace_iff]; simp
  refine ⟨fun hroom hg => ?_, fun hnot => ?_⟩
  · rw [if_pos (hcond.mpr ⟨hroom, hg⟩)]
    exact joined_joinGallery s n g
  · exact if_neg fun h => hnot.elim (· (hcond.mp h).1) (hcond.mp h).2

/-- A gallery that is no member leaves no set (R81). -/
theorem leaveIfMember_of_no_member (hg : ∀ n, servedTour s i = some n → g ∉ s.tours[n].gallerySet) :
    leaveIfMember i g s = s := by
  unfold leaveIfMember
  split
  · rfl
  · next n hn => exact if_neg (by simpa using hg n hn)

/-- A member leaves, and then a place is offered (R81). -/
theorem leaveIfMember_of_member (hn : servedTour s i = some n) (hg : g ∈ s.tours[n].gallerySet) :
    leaveIfMember i g s = offerPlace n (leaveGallery n g .left s) := by
  rw [leaveIfMember, hn]
  exact if_pos (by simpa using hg)

theorem offerPlace_hearing (n : TourNo) (s : State) : (offerPlace n s).hearing = s.hearing :=
  offerPlace_keeps (P := fun t => t.hearing = s.hearing)
    (fun t r _ _ _ _ ht => (joinGallery_hearing n r.port t).trans ht) s rfl

theorem joinOrWait_hearing (i : SourceSlot) (g : PortNo) (s : State) : (joinOrWait i g s).hearing = s.hearing := by
  unfold joinOrWait
  split
  · rfl
  · split
    · exact joinGallery_hearing _ g s
    · rfl

theorem leaveIfMember_hearing (i : SourceSlot) (g : PortNo) (s : State) :
    (leaveIfMember i g s).hearing = s.hearing := by
  unfold leaveIfMember
  split
  · rfl
  · next n _ =>
    split
    · rw [offerPlace_hearing, (leftSet_leaveGallery s n g).hearing]
    · rfl

end Sys2Proof.Machine
end

section
/-! A record of the hearing table: its level smoothed (R75), its comparator moved (R78), the record made for a pair
without one (R74); what an observation, a silence deadline and a leave deadline bring about. -/

namespace Sys2Proof.Machine

open Laws

variable {s t : State} {n : TourNo} {g : PortNo} {i : SourceSlot} {r : HearingRecord} {level : Nat}
  {f k : HearingRecord → HearingRecord}

/-! ### est8 smoothed (R75, R76) -/

theorem smooth_up {est8 obs : Nat} (h : est8 ≤ obs * 8) : smooth est8 obs = est8 + (obs * 8 - est8) / 4 := by
  rw [smooth, Int.tdiv_eq_ediv_of_nonneg (by omega)]
  omega

theorem smooth_down {est8 obs : Nat} (h : obs * 8 ≤ est8) : smooth est8 obs = est8 - (est8 - obs * 8) / 4 := by
  have hneg : (obs : Int) * 8 - est8 = -((est8 : Int) - obs * 8) := by ring
  rw [smooth, hneg, Int.neg_tdiv, Int.tdiv_eq_ediv_of_nonneg (by omega)]
  omega

/-- est8 moves a quarter of the way, and never past its end. -/
theorem smooth_spec {est8 obs : Nat} (he : est8 ≤ 1016) (ho : obs ≤ 127) :
    (smooth est8 obs : Int) = est8 + ((obs : Int) * 8 - est8).tdiv 4 ∧ smooth est8 obs ≤ 1016 ∧
      min est8 (obs * 8) ≤ smooth est8 obs ∧ smooth est8 obs ≤ max est8 (obs * 8) := by
  rcases Nat.le_total est8 (obs * 8) with h | h
  · have hs := smooth_up h
    rw [Int.tdiv_eq_ediv_of_nonneg (by omega)]
    omega
  · have hs := smooth_down h
    have hneg : (obs : Int) * 8 - est8 = -((est8 : Int) - obs * 8) := by ring
    rw [hneg, Int.neg_tdiv, Int.tdiv_eq_ediv_of_nonneg (by omega)]
    omega

theorem smooth_zero (est8 : Nat) : smooth est8 0 = est8 - est8 / 4 := by
  rw [smooth_down (by omega)]; omega

/-! ### Records changed -/

theorem isKey_eq (i : SourceSlot) (g : PortNo) (x : HearingRecord) :
    isKey i g x = decide (x.slot = i ∧ x.port = g) := by
  rw [Bool.eq_iff_iff, isKey_iff, decide_eq_true_eq]

theorem modHearing_eq (i : SourceSlot) (g : PortNo) (f : HearingRecord → HearingRecord) (s : State) :
    modHearing i g f s = { s with hearing := s.hearing.map fun x => if x.slot = i ∧ x.port = g then f x else x } := by
  simp only [modHearing, isKey_iff]

theorem mem_modHearing {x : HearingRecord} (hx : x ∈ (modHearing i g f s).hearing) :
    ∃ y ∈ s.hearing, (isKey i g y = true ∧ x = f y) ∨ (isKey i g y = false ∧ x = y) := by
  obtain ⟨y, hy, rfl⟩ := List.mem_map.mp hx
  cases hkey : isKey i g y
  · exact ⟨y, hy, .inr ⟨hkey, if_neg Bool.false_ne_true⟩⟩
  · exact ⟨y, hy, .inl ⟨hkey, if_pos rfl⟩⟩

/-- The key of a record is kept. -/
def KeepsKey (f : HearingRecord → HearingRecord) : Prop := ∀ x, (f x).slot = x.slot ∧ (f x).port = x.port

theorem KeepsKey.isKey (hf : KeepsKey f) (i : SourceSlot) (g : PortNo) (x : HearingRecord) :
    isKey i g (f x) = isKey i g x := by
  rw [isKey_eq, isKey_eq, (hf x).1, (hf x).2]

/-- Two changes of the records of a key are one. -/
theorem modHearing_modHearing (hf : KeepsKey f) (k : HearingRecord → HearingRecord) (s : State) :
    modHearing i g k (modHearing i g f s) = modHearing i g (fun x => k (f x)) s := by
  simp only [modHearing, List.map_map]
  congr 1
  refine List.map_congr_left fun x _ => ?_
  cases hx : isKey i g x <;> simp [hx, hf.isKey]

/-- A record that became OUT (R78, R79). -/
def HearingRecord.outed (x : HearingRecord) : HearingRecord :=
  { x with comparator := .out, inStamp := none, leaveDeadline := none }

theorem becomeOut_eq (i : SourceSlot) (g : PortNo) (s : State) :
    becomeOut i g s = leaveIfMember i g (modHearing i g HearingRecord.outed s) := rfl

theorem becomeOut_hearing (i : SourceSlot) (g : PortNo) (s : State) :
    (becomeOut i g s).hearing = (modHearing i g HearingRecord.outed s).hearing := by
  rw [becomeOut_eq, leaveIfMember_hearing]

/-! ### The comparator (R78) -/

theorem evaluate_of_none (h : hearingOf s i g = none) : evaluate i g s = s := by
  rw [evaluate, h]

/-- A level that moves a comparator by none of Table 5-4. -/
def Unmoved (s : State) (c : Comparator) (level : Nat) : Prop :=
  (c = .out ∧ level < s.limits.join) ∨ (c = .inside ∧ s.limits.leave ≤ level) ∨
    (c = .leaving ∧ level < s.limits.leave)

theorem evaluate_of_unmoved (h : hearingOf s i g = some r) (hu : Unmoved s r.comparator (r.est8 / 8)) :
    evaluate i g s = s := by
  rcases hu with hu | hu | ⟨hc, hl⟩
  · exact evaluate_of_still h (.inl hu)
  · exact evaluate_of_still h (.inr hu)
  · simp only [evaluate, h, hc, HearingRecord.level, Nat.not_le.mpr hl, if_false, ite_self]

theorem evaluate_out (h : hearingOf s i g = some r) (hfr : r.frozen = false) (hc : r.comparator = .out)
    (hl : s.limits.join ≤ r.est8 / 8) : evaluate i g s = joinOrWait i g
      (modHearing i g (fun x => { x with comparator := .inside, inStamp := some s.clock }) s) := by
  simp only [evaluate, h, hfr, hc, HearingRecord.level, hl, if_true, Bool.false_eq_true, if_false]

theorem evaluate_leaving (h : hearingOf s i g = some r) (hfr : r.frozen = false) (hc : r.comparator = .leaving)
    (hl : s.limits.leave ≤ r.est8 / 8) : evaluate i g s = joinOrWait i g
      (modHearing i g (fun x => { x with comparator := .inside, leaveDeadline := none }) s) := by
  simp only [evaluate, h, hfr, hc, HearingRecord.level, hl, if_true, Bool.false_eq_true, if_false]

theorem evaluate_inside (h : hearingOf s i g = some r) (hfr : r.frozen = false) (hc : r.comparator = .inside)
    (hl : r.est8 / 8 < s.limits.leave) : evaluate i g s = if s.limits.leaveHoldS = 0 then becomeOut i g s else
      modHearing i g (fun x => { x with
        comparator := .leaving
        leaveDeadline := some (s.clock + BitVec.ofNat 32 (s.limits.leaveHoldS * 1000)) }) s := by
  simp only [evaluate, h, hfr, hc, HearingRecord.level, hl, if_true, Bool.false_eq_true, if_false]
  rfl

/-! ### A record that took a level in, compared (R75, R76, R78) -/

/-- A change of a record's est8 and silence deadline only. -/
def TakesLevel (f : HearingRecord → HearingRecord) : Prop :=
  ∀ x, f x = { x with est8 := (f x).est8, silenceDeadline := (f x).silenceDeadline }

section
variable (hf : TakesLevel f) (h : hearingOf s i g = some r)
include hf

theorem TakesLevel.keepsKey : KeepsKey f := fun x => by rw [hf x]; exact ⟨rfl, rfl⟩

include h

theorem TakesLevel.record : hearingOf (modHearing i g f s) i g = some (f r) := by
  rw [hearingOf_modHearing (fun x hx => by rwa [hf.keepsKey.isKey]), h]
  rfl

theorem TakesLevel.stays (hu : Unmoved s r.comparator ((f r).est8 / 8)) :
    evaluate i g (modHearing i g f s) = modHearing i g f s := by
  refine evaluate_of_unmoved (hf.record h) ?_
  rwa [show (f r).comparator = r.comparator by rw [hf r]]

theorem TakesLevel.cameIn_of_out (hfr : r.frozen = false) (hc : r.comparator = .out)
    (hl : s.limits.join ≤ (f r).est8 / 8) : CameIn i g (modHearing i g (fun x => { f x with
      comparator := .inside, inStamp := some s.clock }) s) (evaluate i g (modHearing i g f s)) := by
  have hmoved := modHearing_modHearing (i := i) (g := g) hf.keepsKey
    (fun x => { x with comparator := .inside, inStamp := some s.clock }) s
  rw [evaluate_out (hf.record h) (by rw [hf r]; exact hfr) (by rw [hf r]; exact hc) hl, modHearing_clock, hmoved]
  exact cameIn_joinOrWait i g _

theorem TakesLevel.cameIn_of_leaving (hfr : r.frozen = false) (hc : r.comparator = .leaving)
    (hl : s.limits.leave ≤ (f r).est8 / 8) : CameIn i g (modHearing i g (fun x => { f x with
      comparator := .inside, leaveDeadline := none }) s) (evaluate i g (modHearing i g f s)) := by
  have hmoved := modHearing_modHearing (i := i) (g := g) hf.keepsKey
    (fun x => { x with comparator := .inside, leaveDeadline := none }) s
  rw [evaluate_leaving (hf.record h) (by rw [hf r]; exact hfr) (by rw [hf r]; exact hc) hl, hmoved]
  exact cameIn_joinOrWait i g _

theorem TakesLevel.out_or_leaving_of_inside (hfr : r.frozen = false) (hc : r.comparator = .inside)
    (hl : (f r).est8 / 8 < s.limits.leave) : evaluate i g (modHearing i g f s) =
      if s.limits.leaveHoldS = 0 then becomeOut i g (modHearing i g f s) else
        modHearing i g (fun x => { f x with
          comparator := .leaving
          leaveDeadline := some (s.clock + BitVec.ofNat 32 (s.limits.leaveHoldS * 1000)) }) s := by
  have hmoved := modHearing_modHearing (i := i) (g := g) hf.keepsKey (fun x => { x with
    comparator := .leaving
    leaveDeadline := some (s.clock + BitVec.ofNat 32 (s.limits.leaveHoldS * 1000)) }) s
  rw [evaluate_inside (hf.record h) (by rw [hf r]; exact hfr) (by rw [hf r]; exact hc) hl, ← hmoved]
  rfl

end

/-! ### An observation of a record (R73, R75) -/

theorem takesLevel_after (s : State) (level : Nat) : TakesLevel (HearingRecord.after s level) := fun _ => rfl

theorem observe_of_some (h : hearingOf s i g = some r) :
    observe i g level s = evaluate i g (modHearing i g (HearingRecord.after s level) s) := by
  rw [observe, h]
  rfl

/-! ### The record made for a pair without one (R74) -/

/-- The record made by an observation, before it is compared. -/
def newRecord (s : State) (i : SourceSlot) (g : PortNo) (obs : Nat) : HearingRecord :=
  ⟨i, g, obs * 8, .out, none, some (s.clock + BitVec.ofNat 32 s.limits.silenceMs), none, false⟩

/-- The hub with a record more in its table. -/
def withRecord (x : HearingRecord) (kept : List HearingRecord) (s : State) : State :=
  { s with hearing := insertBefore keyBefore x kept }

theorem createHearing_eq (i : SourceSlot) (g : PortNo) (obs : Nat) (s : State) :
    createHearing i g obs s = evaluate i g (withRecord (newRecord s i g obs) s.hearing s) := rfl

/-- The one record of a key changed, in a table that had none of the key. -/
theorem map_insertBefore (hf : KeepsKey f) {x : HearingRecord} {l : List HearingRecord} (hx : isKey i g x = true)
    (hl : ∀ y ∈ l, isKey i g y = false) :
    ((insertBefore keyBefore x l).map fun y => if isKey i g y then f y else y) = insertBefore keyBefore (f x) l := by
  have hbefore (y : HearingRecord) : keyBefore (f x) y = keyBefore x y := by
    rw [keyBefore, keyBefore, (hf x).1, (hf x).2]
  induction l with
  | nil => simp [insertBefore, hx]
  | cons y ys ih =>
    obtain ⟨hy, hys⟩ := List.forall_mem_cons.mp hl
    have hsame : (ys.map fun y => if isKey i g y then f y else y) = ys :=
      (List.map_congr_left fun z hz => if_neg (Bool.eq_false_iff.mp (hys z hz))).trans (List.map_id' ys)
    unfold insertBefore
    rw [hbefore]
    split
    · simp [hx, hy, hsame]
    · simp [hy, ih hys]

theorem hearingOf_eq_none : hearingOf s i g = none ↔ ∀ y ∈ s.hearing, isKey i g y = false := by
  rw [hearingOf, List.find?_eq_none]
  exact forall₂_congr fun y _ => Bool.not_eq_true _ |>.to_iff

section
variable {kept : List HearingRecord} {obs : Nat} (hnone : ∀ y ∈ kept, isKey i g y = false)
include hnone

theorem hearingOf_withRecord {x : HearingRecord} (hx : isKey i g x = true) :
    hearingOf (withRecord x kept s) i g = some x :=
  find?_insertBefore hx (List.find?_eq_none.mpr fun y hy => Bool.eq_false_iff.mp (hnone y hy))

/-- The new record stays OUT below the join threshold (R74, R78). -/
theorem evaluate_newRecord_low (hl : obs < s.limits.join) :
    evaluate i g (withRecord (newRecord s i g obs) kept s) = withRecord (newRecord s i g obs) kept s := by
  refine evaluate_of_unmoved (hearingOf_withRecord hnone (by simp [isKey, newRecord])) (.inl ⟨rfl, ?_⟩)
  simpa [newRecord, withRecord] using hl

/-- The new record comes IN at the join threshold (R74, R78). -/
theorem evaluate_newRecord_high (hl : s.limits.join ≤ obs) :
    CameIn i g (withRecord { newRecord s i g obs with comparator := .inside, inStamp := some s.clock } kept s)
      (evaluate i g (withRecord (newRecord s i g obs) kept s)) := by
  have hkey : isKey i g (newRecord s i g obs) = true := by simp [isKey, newRecord]
  have hmap := map_insertBefore (f := fun x => { x with comparator := .inside, inStamp := some s.clock })
    (fun _ => ⟨rfl, rfl⟩) hkey hnone
  rw [evaluate_out (hearingOf_withRecord hnone hkey) rfl rfl (by simpa [newRecord, withRecord] using hl)]
  simp only [modHearing, withRecord, hmap]
  exact cameIn_joinOrWait i g _

end

/-! ### The table that a new record joins (R74) -/

/-- The order of R74 is that of its three keys. -/
theorem evictBefore_of_goesBefore {e x : HearingRecord} (h : GoesBefore e x) :
    evictBefore e x = true ∧ evictBefore x e = false := by
  unfold evictBefore
  rcases h with h | ⟨he, h | ⟨a, ha, b, hb, hab⟩ | ⟨hd, h⟩⟩
  · have hne : e.est8 ≠ x.est8 := Nat.ne_of_lt h
    simp [hne, hne.symm, h, Nat.le_of_lt h]
  · obtain ⟨hn, hx⟩ := h
    obtain ⟨b, hb⟩ := Option.ne_none_iff_exists'.mp hx
    simp [he, hn, hb]
  · obtain ⟨hba, hne⟩ := earlier_asymm hab
    simp [he, ha, hb, hab, hba, hne, hne.symm]
  · have hkey : keyBefore e x = true ∧ keyBefore x e = false := by
      simp only [keyBefore, Bool.or_eq_true, Bool.or_eq_false_iff, Bool.and_eq_true, Bool.and_eq_false_imp,
        decide_eq_true_eq, decide_eq_false_iff_not, beq_iff_eq]
      rcases h with h | ⟨hs, hp⟩
      · exact ⟨.inl h, h.not_gt, fun e => absurd e h.ne'⟩
      · exact ⟨.inr ⟨hs, hp⟩, hs ▸ lt_irrefl _, fun _ => hp.not_gt⟩
    simp [he, hd, hkey]

/-- The new record joins the table that R74 makes room in, and is compared. -/
theorem observe_of_makesRoom {kept : List HearingRecord} (hroom : MakesRoom s.hearing kept)
    (h : hearingOf s i g = none) : observe i g level s =
      evaluate i g (withRecord (newRecord s i g (min 127 level)) kept s) := by
  simp only [observe, h]
  rcases hroom with ⟨hlen, rfl⟩ | ⟨hlen, e, he, hout, hfirst, rfl⟩
  · rw [if_pos (show _ < Config.hearingRecords from hlen), createHearing_eq]
  · have hevicted : evicted s = some e := by
      refine bestOf_eq_some (List.mem_filter.mpr ⟨he, by simp [hout]⟩) fun x hx hne => ?_
      obtain ⟨hx, hxo⟩ := List.mem_filter.mp hx
      exact evictBefore_of_goesBefore (hfirst x hx (beq_iff_eq.mp hxo) hne)
    have hdrop : dropHearing e.slot e.port s =
        { s with hearing := s.hearing.filter fun x => !(x.slot = e.slot ∧ x.port = e.port) } := by
      simp only [dropHearing, isKey_eq]
    rw [if_neg (show ¬ _ < Config.hearingRecords from Nat.not_lt.mpr hlen), hevicted]
    dsimp only
    rw [createHearing_eq, hdrop]
    rfl

theorem MakesRoom.subset {table kept : List HearingRecord} (h : MakesRoom table kept) : kept ⊆ table := by
  rcases h with ⟨-, rfl⟩ | ⟨-, e, -, -, -, rfl⟩
  · exact List.Subset.refl _
  · exact List.filter_subset_self _

/-- With no OUT record a full table tracks no other pair. -/
theorem observe_of_full (h : hearingOf s i g = none) (hlen : 96 ≤ s.hearing.length)
    (hout : ∀ x ∈ s.hearing, x.comparator ≠ .out) : observe i g level s = s := by
  have hevicted : evicted s = none := by
    rw [evicted, List.filter_eq_nil_iff.mpr fun x hx => by simpa using hout x hx]
    rfl
  simp only [observe, h]
  rw [if_neg (show ¬ _ < Config.hearingRecords from Nat.not_lt.mpr hlen), hevicted]

/-- Settles O33: the record takes the level in and is compared, or is made and then compared. -/
theorem observationMovesTheComparator : Obligations.ObservationMovesTheComparator := by
  unfold Obligations.ObservationMovesTheComparator
  refine ⟨fun est8 obs => smooth_spec, fun s i g level => ⟨fun r h hfr => ?_, fun h => ⟨fun kept hroom => ?_, ?_⟩⟩⟩
  · have hf := takesLevel_after s level
    rw [observe_of_some h]
    refine ⟨fun hc hl => hf.cameIn_of_out h hfr hc hl, fun hc hl => hf.cameIn_of_leaving h hfr hc hl,
      fun hc hl => ⟨fun hhold => ?_, fun hhold => ?_⟩, fun hu => hf.stays h hu⟩
    · rw [hf.out_or_leaving_of_inside h hfr hc hl, if_neg hhold]
    · rw [hf.out_or_leaving_of_inside h hfr hc hl, if_pos hhold]
  · have hnone : ∀ y ∈ kept, isKey i g y = false := fun y hy => hearingOf_eq_none.mp h y (hroom.subset hy)
    rw [observe_of_makesRoom hroom h]
    exact ⟨evaluate_newRecord_low hnone, evaluate_newRecord_high hnone⟩
  · exact observe_of_full h

end Sys2Proof.Machine
end

section
/-! The deadlines of a hearing record: SILENCE_DEADLINE_EXPIRY (R76) and LEAVE_DEADLINE_EXPIRY (R79). -/

namespace Sys2Proof.Machine

open Laws

variable {s : State} {n : TourNo} {g : PortNo} {i : SourceSlot} {r : HearingRecord}

/-! ### The silence deadline (R76) -/

/-- est8 after a silence deadline. -/
def decay (est8 : Nat) : Nat := if est8 ≤ 3 then 0 else est8 - est8 / 4

theorem decay_of_le {est8 : Nat} (h : est8 ≤ 3) : decay est8 = 0 := if_pos h

theorem decay_of_gt {est8 : Nat} (h : 4 ≤ est8) : decay est8 = est8 - est8 / 4 := if_neg (by omega)

theorem decay_eq_smooth (est8 : Nat) :
    (if smooth est8 0 = est8 ∧ smooth est8 0 ≤ 3 then 0 else smooth est8 0) = decay est8 := by
  rw [smooth_zero, decay]
  split <;> split <;> omega

theorem decay_eq_zero {est8 : Nat} : decay est8 = 0 ↔ est8 ≤ 3 := by
  unfold decay
  split <;> omega

/-- A record that took a decayed level in, and is re-armed. -/
def HearingRecord.rearmed (s : State) (e : Nat) (x : HearingRecord) : HearingRecord :=
  { x with est8 := e, silenceDeadline := some (s.clock + BitVec.ofNat 32 s.limits.silenceMs) }

theorem takesLevel_rearmed (s : State) (e : Nat) : TakesLevel (HearingRecord.rearmed s e) := fun _ => rfl

section
variable (hrun : s.phase = .running) (h : hearingOf s i g = some r) (hfr : r.frozen = false)
include hrun h hfr

theorem exec_silenceDeadlineExpiry (hdue : s.due r.silenceDeadline = true) :
    exec (.silenceDeadlineExpiry i g) s = .next (if r.comparator = .out ∧ r.est8 ≤ 3 then dropHearing i g s
      else evaluate i g (modHearing i g (HearingRecord.rearmed s (decay r.est8)) s)) := by
  change execSilenceDeadlineExpiry i g s = _
  rw [execSilenceDeadlineExpiry, running_of_running s hrun]
  simp only [silenceExpiry, h, hfr, hdue, and_self, if_true, decay_eq_smooth, decay_eq_zero]
  rfl

/-- The record is compared, if it is not an OUT one whose level has run out. -/
theorem exec_silenceDeadlineExpiry_compared (hdue : s.due r.silenceDeadline = true)
    (hn : r.comparator ≠ .out ∨ 4 ≤ r.est8) : exec (.silenceDeadlineExpiry i g) s =
      .next (evaluate i g (modHearing i g (HearingRecord.rearmed s (decay r.est8)) s)) := by
  rw [exec_silenceDeadlineExpiry hrun h hfr hdue, if_neg]
  rintro ⟨hc, he⟩
  exact hn.elim (· hc) fun h4 => absurd he (by omega)

theorem exec_leaveDeadlineExpiry (hc : r.comparator = .leaving) (hdue : s.due r.leaveDeadline = true) :
    exec (.leaveDeadlineExpiry i g) s = .next (becomeOut i g s) := by
  change execLeaveDeadlineExpiry i g s = _
  rw [execLeaveDeadlineExpiry, running_of_running s hrun]
  simp only [leaveExpiry, h, hfr, hc, hdue, and_self, if_true]

end

/-- A record re-armed that comes neither IN nor OUT: an IN one goes to LEAVING below the leave threshold (R76, R78). -/
theorem evaluate_rearmed (h : hearingOf s i g = some r) (hfr : r.frozen = false) {e : Nat}
    (hcase : (r.comparator = .inside ∧ (s.limits.leaveHoldS ≠ 0 ∨ s.limits.leave ≤ e / 8)) ∨
      (r.comparator = .leaving ∧ e / 8 < s.limits.leave)) :
    evaluate i g (modHearing i g (HearingRecord.rearmed s e) s) = { s with
      hearing := s.hearing.map fun x => if x.slot = i ∧ x.port = g then { x with
        est8 := e, silenceDeadline := some (s.clock + BitVec.ofNat 32 s.limits.silenceMs)
        comparator := if r.comparator = .inside ∧ e / 8 < s.limits.leave then .leaving else x.comparator
        leaveDeadline := if r.comparator = .inside ∧ e / 8 < s.limits.leave then
          some (s.clock + BitVec.ofNat 32 (s.limits.leaveHoldS * 1000)) else x.leaveDeadline }
      else x } := by
  have hf := takesLevel_rearmed s e
  by_cases hm : r.comparator = .inside ∧ e / 8 < s.limits.leave
  · have hhold : s.limits.leaveHoldS ≠ 0 := by
      rcases hcase with ⟨-, hh | hl⟩ | ⟨hc, -⟩
      · exact hh
      · exact absurd hm.2 (Nat.not_lt.mpr hl)
      · rw [hm.1] at hc; cases hc
    rw [hf.out_or_leaving_of_inside h hfr hm.1 hm.2, if_neg hhold, modHearing_eq]
    simp only [if_pos hm]
    rfl
  · have hu : Unmoved s r.comparator (e / 8) := by
      rcases hcase with ⟨hc, -⟩ | hl
      · exact .inr (.inl ⟨hc, Nat.not_lt.mp fun hl => hm ⟨hc, hl⟩⟩)
      · exact .inr (.inr hl)
    rw [hf.stays h hu, modHearing_eq]
    simp only [if_neg hm]
    rfl

/-! ### The leave deadline (R79, R81) -/

/-- A gallery of which the guide has no IN record does not join as places are offered. -/
theorem not_mem_offerPlace (hguide : s.tours[n].guide = some i) (hg : g ∉ s.tours[n].gallerySet)
    (hout : ∀ x ∈ s.hearing, isKey i g x = true → x.comparator ≠ .inside) :
    g ∉ (offerPlace n s).tours[n].gallerySet := by
  refine (offerPlace_keeps (n := n) (P := fun t => t.hearing = s.hearing ∧ t.tours[n].guide = some i ∧
    g ∉ t.tours[n].gallerySet) ?_ s ⟨rfl, hguide, hg⟩).2.2
  rintro t x hx hslot hin - ⟨hh, hgt, hm⟩
  rw [joinGallery_hearing, joinGallery_tours_self]
  refine ⟨hh, hgt, fun hmem => ?_⟩
  rcases List.mem_append.mp hmem with hmem | hmem
  · exact hm hmem
  · rw [hgt, Option.some.injEq] at hslot
    exact hout x (hh ▸ hx) (isKey_iff.mpr ⟨hslot.symm, (List.mem_singleton.mp hmem).symm⟩) hin

theorem becomeOut_of_no_member (hg : ∀ n, servedTour s i = some n → g ∉ s.tours[n].gallerySet) :
    becomeOut i g s = modHearing i g HearingRecord.outed s :=
  leaveIfMember_of_no_member hg

theorem becomeOut_of_member (hn : servedTour s i = some n) (hg : g ∈ s.tours[n].gallerySet) :
    becomeOut i g s = offerPlace n (leaveGallery n g .left (modHearing i g HearingRecord.outed s)) :=
  leaveIfMember_of_member hn hg

/-- The gallery of a record that became OUT is not in the set of the tour that the guide serves. -/
theorem not_mem_becomeOut (hn : servedTour s i = some n) : g ∉ (becomeOut i g s).tours[n].gallerySet := by
  by_cases hg : g ∈ s.tours[n].gallerySet
  · rw [becomeOut_of_member hn hg]
    have hleft := leftSet_leaveGallery (modHearing i g HearingRecord.outed s) n g
    refine not_mem_offerPlace (i := i) ?_ ?_ fun x hx hkey => ?_
    · rw [hleft.tours_self]; exact (servedTour_guide hn).2
    · rw [hleft.tours_self]; simp
    · rw [hleft.hearing] at hx
      obtain ⟨y, -, ⟨-, rfl⟩ | ⟨hy, rfl⟩⟩ := mem_modHearing hx
      · exact nofun
      · exact absurd hkey (Bool.eq_false_iff.mp hy)
  · rw [becomeOut_of_no_member fun m hm => by rw [hn] at hm; cases hm; exact hg]
    exact hg

/-- Settles O34: a silence deadline lets the level decay and compares, a leave deadline makes the record OUT. -/
theorem hearingDeadlinesEndRecords : Obligations.HearingDeadlinesEndRecords := by
  unfold Obligations.HearingDeadlinesEndRecords
  intro s i g r hrun h hfr
  have hf := takesLevel_rearmed s (decay r.est8)
  refine ⟨fun hc hdue he => ?_, fun hc hdue he hl => ?_, fun hc hdue he hl => ?_, fun hc hdue hl he => ?_,
    fun hc hdue hhold hl => ?_, fun hc hdue hcase => ?_, fun hc hdue => ?_⟩
  · rw [exec_silenceDeadlineExpiry hrun h hfr hdue, if_pos ⟨hc, he⟩]
    simp only [dropHearing, isKey_eq]
  · rw [← decay_of_gt he] at hl ⊢
    rw [exec_silenceDeadlineExpiry_compared hrun h hfr hdue (.inr he), hf.stays h (.inl ⟨hc, hl⟩), modHearing_eq]
    rfl
  · rw [← decay_of_gt he] at hl ⊢
    exact ⟨_, exec_silenceDeadlineExpiry_compared hrun h hfr hdue (.inr he), hf.cameIn_of_out h hfr hc hl⟩
  · rw [← decay_of_gt he] at hl ⊢
    exact ⟨_, exec_silenceDeadlineExpiry_compared hrun h hfr hdue (.inr he), hf.cameIn_of_leaving h hfr hc hl⟩
  · rw [exec_silenceDeadlineExpiry_compared hrun h hfr hdue (.inl (by rw [hc]; nofun)),
      hf.out_or_leaving_of_inside h hfr hc hl, if_pos hhold]
    rfl
  · rw [exec_silenceDeadlineExpiry_compared hrun h hfr hdue (.inl hc)]
    exact congrArg _ (evaluate_rearmed h hfr hcase)
  · refine ⟨_, exec_leaveDeadlineExpiry hrun h hfr hc hdue, ?_, fun hg => ?_, fun n hn => not_mem_becomeOut hn, ?_⟩
    · rw [becomeOut_hearing, modHearing_eq]
      rfl
    · rw [becomeOut_of_no_member hg]
      rfl
    · have hgrown : Grown s (becomeOut i g s) := (followKeeps_grown s).becomeOut i g s (Grown.refl s)
      have haside : asideOf (becomeOut i g s) = asideOf s :=
        (followKeeps_of_ignores (π := asideOf) (fun _ _ _ _ _ _ _ => rfl) (fun _ _ _ _ _ _ => rfl) _).becomeOut i g s rfl
      obtain ⟨hset, hrec, hrack, hpool, hout, hreq, -⟩ := settingsKept_of_aside haside hgrown.2.1
      exact ⟨hset, hgrown.2.2, hrec, hrack, hpool, hout, hreq⟩

end Sys2Proof.Machine
end

section
/-! A place offered to candidates (R80), and the thaw of a guide (R86). -/

namespace Sys2Proof.Machine

open Laws

variable {s t : State} {n : TourNo} {g : PortNo} {i : SourceSlot} {r : HearingRecord} {gs : List PortNo}
  {f : HearingRecord → HearingRecord}

/-! ### A place offered (R80) -/

theorem mem_candidates : r ∈ candidates s n ↔ r ∈ s.hearing ∧ s.tours[n].guide = some r.slot ∧
    r.comparator = .inside ∧ r.port ∉ s.tours[n].gallerySet := by
  simp [candidates, and_assoc]

/-- What an offer does: a gallery joins a set with room, or nothing. -/
theorem offerOne_cases (n : TourNo) (s : State) :
    offerOne n s = s ∨ (HasRoomFor s n ∧ ∃ g, offerOne n s = joinGallery n g s) := by
  unfold offerOne
  split
  · next hc =>
    split
    · exact .inl rfl
    · exact .inr ⟨hasPlace_iff.mp hc.2, _, rfl⟩
  · exact .inl rfl

theorem offerOne_of_nothing (h : s.tours[n].state = .closed ∨ ¬ HasRoomFor s n ∨ candidates s n = []) :
    offerOne n s = s := by
  unfold offerOne
  split
  · next hc =>
    have hnone : candidates s n = [] := by
      rcases h with h | h | h
      · rw [h] at hc; exact absurd hc.1 (by decide)
      · exact absurd (hasPlace_iff.mp hc.2) h
      · exact h
    rw [hnone]
    rfl
  · rfl

theorem offerPlace_of_fixed (h : offerOne n s = s) : offerPlace n s = s := by
  rw [offerPlace, h, h, h]

/-- The head candidate joins (R80). -/
theorem offerOne_of_head (ho : s.tours[n].state = .opened) (hroom : HasRoomFor s n) (hr : r ∈ candidates s n)
    (hfirst : ∀ x ∈ candidates s n, x ≠ r → JoinsFirst r x) : offerOne n s = joinGallery n r.port s := by
  have hbest : bestOf candidateBefore (candidates s n) = some r :=
    bestOf_eq_some hr fun x hx hne => candidateBefore_of_joinsFirst (hfirst x hx hne)
  rw [offerOne, if_pos ⟨ho, hasPlace_iff.mpr hroom⟩, hbest]

/-- An offer leaves the hub as it is, or the set holds a member more. -/
theorem offerOne_fixed_or_longer (n : TourNo) (s : State) : offerOne n s = s ∨
    (offerOne n s).tours[n].gallerySet.length = s.tours[n].gallerySet.length + 1 := by
  refine (offerOne_cases n s).imp_right ?_
  rintro ⟨-, g, hg⟩
  rw [hg, joinGallery_tours_self, List.length_append]
  rfl

/-- Two offers are as good as three to a set that has a member: it is full then, or no one joins any more. -/
theorem offerPlace_of_member (h : 1 ≤ s.tours[n].gallerySet.length) :
    offerPlace n s = offerOne n (offerOne n s) := by
  rw [offerPlace]
  rcases offerOne_fixed_or_longer n s with hs | hs
  · rw [hs, hs, hs]
  · rcases offerOne_fixed_or_longer n (offerOne n s) with hs' | hs'
    · rw [hs', hs']
    · refine offerOne_of_nothing (.inr (.inl fun hroom => ?_))
      have := hroom.1
      omega

theorem offerPlace_of_head (ho : s.tours[n].state = .opened) (hroom : HasRoomFor s n) (hr : r ∈ candidates s n)
    (hfirst : ∀ x ∈ candidates s n, x ≠ r → JoinsFirst r x) :
    offerPlace n s = offerPlace n (joinGallery n r.port s) := by
  have hlen : 1 ≤ (joinGallery n r.port s).tours[n].gallerySet.length := by
    rw [joinGallery_tours_self]; simp
  rw [offerPlace_of_member hlen, offerPlace, offerOne_of_head ho hroom hr hfirst]

/-! ### No record stays frozen (R86) -/

/-- The frozen records of a guide are those at these ports, at most. -/
def FrozenAt (i : SourceSlot) (gs : List PortNo) (s : State) : Prop :=
  ∀ x ∈ s.hearing, x.slot = i → x.frozen = true → x.port ∈ gs

theorem frozenAt_of_hearing (h : t.hearing = s.hearing) (hs : FrozenAt i gs s) : FrozenAt i gs t := by
  rw [FrozenAt, h]; exact hs

/-- A change that keeps what is frozen. -/
theorem frozenAt_modHearing (hf : ∀ x, (f x).slot = x.slot ∧ (f x).port = x.port ∧ (f x).frozen = x.frozen)
    (hs : FrozenAt i gs s) : FrozenAt i gs (modHearing i g f s) := by
  intro x hx hslot hfr
  obtain ⟨y, hy, ⟨-, rfl⟩ | ⟨-, rfl⟩⟩ := mem_modHearing hx
  · obtain ⟨h1, h2, h3⟩ := hf y
    rw [h2]
    exact hs y hy (h1 ▸ hslot) (h3 ▸ hfr)
  · exact hs x hy hslot hfr

theorem frozenAt_becomeOut (hs : FrozenAt i gs s) : FrozenAt i gs (becomeOut i g s) :=
  frozenAt_of_hearing (becomeOut_hearing i g s) (frozenAt_modHearing (fun _ => ⟨rfl, rfl, rfl⟩) hs)

theorem frozenAt_evaluate (hs : FrozenAt i gs s) : FrozenAt i gs (evaluate i g s) := by
  unfold evaluate
  split
  · exact hs
  · refine ite_keeps hs ?_
    split
    · exact ite_keeps (frozenAt_of_hearing (joinOrWait_hearing _ _ _)
        (frozenAt_modHearing (fun _ => ⟨rfl, rfl, rfl⟩) hs)) hs
    · exact ite_keeps (ite_keeps (frozenAt_becomeOut hs) (frozenAt_modHearing (fun _ => ⟨rfl, rfl, rfl⟩) hs)) hs
    · exact ite_keeps (frozenAt_of_hearing (joinOrWait_hearing _ _ _)
        (frozenAt_modHearing (fun _ => ⟨rfl, rfl, rfl⟩) hs)) hs

/-- A record thawed as R86 step 1 gives, its hold in full if it is LEAVING. -/
def HearingRecord.thawed (s : State) (leaving : Bool) (x : HearingRecord) : HearingRecord :=
  { x with
    frozen := false, silenceDeadline := some (s.clock + BitVec.ofNat 32 s.limits.silenceMs)
    leaveDeadline := if leaving then some (s.clock + BitVec.ofNat 32 (s.limits.leaveHoldS * 1000)) else none }

/-- The record of a key is LEAVING. -/
def isLeaving (s : State) (i : SourceSlot) (g : PortNo) : Bool :=
  (hearingOf s i g).any fun r => r.comparator == .leaving

theorem isLeaving_of_some (h : hearingOf s i g = some r) : isLeaving s i g = (r.comparator == .leaving) := by
  rw [isLeaving, h]
  rfl

theorem thawRecord_eq (i : SourceSlot) (g : PortNo) (s : State) : thawRecord i g s =
    if (isLeaving s i g && s.limits.leaveHoldS == 0) = true then
      becomeOut i g (modHearing i g (HearingRecord.thawed s (isLeaving s i g)) s)
    else modHearing i g (HearingRecord.thawed s (isLeaving s i g)) s := by
  unfold thawRecord isLeaving
  cases hearingOf s i g <;> rfl

theorem frozenAt_thawRecord (hs : FrozenAt i (g :: gs) s) : FrozenAt i gs (thawRecord i g s) := by
  have hthawed : FrozenAt i gs (modHearing i g (HearingRecord.thawed s (isLeaving s i g)) s) := by
    intro x hx hslot hfr
    obtain ⟨y, hy, ⟨-, rfl⟩ | ⟨hkey, rfl⟩⟩ := mem_modHearing hx
    · exact absurd hfr Bool.false_ne_true
    · exact (List.mem_cons.mp (hs x hy hslot hfr)).resolve_left fun hp =>
        Bool.eq_false_iff.mp hkey (isKey_iff.mpr ⟨hslot, hp⟩)
  rw [thawRecord_eq]
  exact ite_keeps (frozenAt_becomeOut hthawed) hthawed

theorem frozenAt_forEach_thawRecord (gs : List PortNo) (s : State) (hs : FrozenAt i gs s) :
    FrozenAt i [] (forEach gs (thawRecord i) s) := by
  induction gs generalizing s with
  | nil => exact hs
  | cons g gs ih => exact ih _ (frozenAt_thawRecord hs)

theorem mem_portsHearing {x : HearingRecord} (hx : x ∈ s.hearing) (hslot : x.slot = i) :
    x.port ∈ portsHearing s i :=
  List.mem_map.mpr ⟨x, List.mem_filter.mpr ⟨hx, beq_iff_eq.mpr hslot⟩, rfl⟩

/-- The hub once the guide's records are thawed and compared. -/
def thawedRecords (i : SourceSlot) (s : State) : State :=
  let t := forEach (portsHearing s i) (thawRecord i) s
  { forEach (portsHearing t i) (evaluate i) t with guideFrozen :=
      (forEach (portsHearing t i) (evaluate i) t).guideFrozen.set i false }

theorem thawGuide_eq (i : SourceSlot) (s : State) : thawGuide i s =
    match servedTour (thawedRecords i s) i with
    | none => thawedRecords i s
    | some n => offerPlace n (thawedRecords i s) := rfl

theorem thawGuide_hearing (i : SourceSlot) (s : State) : (thawGuide i s).hearing = (thawedRecords i s).hearing := by
  rw [thawGuide_eq]
  split
  · rfl
  · exact offerPlace_hearing _ _

/-- No record of the guide stays frozen. -/
theorem frozenAt_thawedRecords (i : SourceSlot) (s : State) : FrozenAt i [] (thawedRecords i s) :=
  forEach_keeps (P := FrozenAt i []) _ (fun _ _ ht => frozenAt_evaluate ht) _
    (frozenAt_forEach_thawRecord _ s fun _ hx hslot _ => mem_portsHearing hx hslot)

/-! ### A thaw that moves no comparator (R86) -/

/-- The records of one key agree on the comparator. -/
def AgreeByKey (i : SourceSlot) (s : State) : Prop :=
  ∀ x ∈ s.hearing, x.slot = i → ∀ y ∈ s.hearing, y.slot = i → x.port = y.port → x.comparator = y.comparator

/-- A record thawed by what its own comparator says. -/
def thawedBy (s : State) (x : HearingRecord) : HearingRecord := x.thawed s (x.comparator == .leaving)

theorem hearingOf_some_iff (h : hearingOf s i g = some r) : r ∈ s.hearing ∧ r.slot = i ∧ r.port = g :=
  ⟨List.mem_of_find?_eq_some h, isKey_iff.mp (List.find?_some (p := isKey i g) h)⟩

/-- With a leave hold a record that thaws only changes (R86 step 1). -/
theorem thawRecord_of_hold (hhold : s.limits.leaveHoldS ≠ 0) (hs : AgreeByKey i s) :
    thawRecord i g s = modHearing i g (thawedBy s) s := by
  rw [thawRecord_eq, if_neg fun h => hhold (beq_iff_eq.mp (Bool.and_eq_true_iff.mp h).2)]
  simp only [modHearing]
  congr 1
  refine List.map_congr_left fun x hx => ?_
  split
  · next hkey =>
    obtain ⟨hslot, hport⟩ := isKey_iff.mp hkey
    obtain ⟨r, hr⟩ : ∃ r, hearingOf s i g = some r :=
      Option.isSome_iff_exists.mp (List.find?_isSome.mpr ⟨x, hx, hkey⟩)
    obtain ⟨hm, hrs, hrp⟩ := hearingOf_some_iff hr
    have hcomp := hs x hx hslot r hm hrs (hport.trans hrp.symm)
    rw [isLeaving_of_some hr, ← hcomp, thawedBy]
  · rfl

/-- A change of the records of several keys, that twice is as good as once. -/
theorem forEach_modHearing (htwice : ∀ x, f (f x) = f x) (gs : List PortNo) (s : State) :
    forEach gs (fun g => modHearing i g f) s = { s with
      hearing := s.hearing.map fun x => if x.slot = i ∧ x.port ∈ gs then f x else x } := by
  induction gs generalizing s with
  | nil => simp [forEach]
  | cons g gs ih =>
    rw [forEach_cons, ih, modHearing_eq]
    congr 1
    rw [List.map_map]
    refine List.map_congr_left fun x _ => ?_
    rw [Function.comp_apply]
    by_cases hkey : x.slot = i ∧ x.port = g
    · rw [if_pos hkey, htwice, ite_self, if_pos ⟨hkey.1, List.mem_cons.mpr (.inl hkey.2)⟩]
    · rw [if_neg hkey]
      refine if_congr ?_ rfl rfl
      rw [List.mem_cons]
      tauto

/-- The hub with the records of a guide thawed, each with its new deadlines. -/
def recordsThawed (i : SourceSlot) (s : State) : State :=
  { s with hearing := s.hearing.map fun x => if x.slot = i then thawedBy s x else x }

theorem agreeByKey_thawed (h : AgreeByKey i t) : AgreeByKey i (modHearing i g (thawedBy s) t) := by
  have hfrom {x : HearingRecord} (hx : x ∈ (modHearing i g (thawedBy s) t).hearing) :
      ∃ y ∈ t.hearing, x.slot = y.slot ∧ x.port = y.port ∧ x.comparator = y.comparator := by
    obtain ⟨y, hy, ⟨-, rfl⟩ | ⟨-, rfl⟩⟩ := mem_modHearing hx <;> exact ⟨_, hy, rfl, rfl, rfl⟩
  intro x hx hxs y hy hys hp
  obtain ⟨x', hx', hslot, hport, hcomp⟩ := hfrom hx
  obtain ⟨y', hy', hslot', hport', hcomp'⟩ := hfrom hy
  rw [hcomp, hcomp']
  exact h x' hx' (hslot ▸ hxs) y' hy' (hslot' ▸ hys) (hport ▸ hport' ▸ hp)

/-- With a leave hold the records of a guide thaw one by one as all at once. -/
theorem forEach_thawRecord (hhold : s.limits.leaveHoldS ≠ 0) (hs : AgreeByKey i s) :
    forEach (portsHearing s i) (thawRecord i) s = recordsThawed i s := by
  have hall : forEach (portsHearing s i) (thawRecord i) s =
      forEach (portsHearing s i) (fun g => modHearing i g (thawedBy s)) s := by
    refine forEach_congr_of_keeps
      (P := fun t => t.clock = s.clock ∧ t.limits = s.limits ∧ AgreeByKey i t) (fun g t ⟨hc, hl, ht⟩ => ?_)
      (fun g t ⟨hc, hl, ht⟩ => ?_) _ s ⟨rfl, rfl, hs⟩
    · exact ⟨hc, hl, agreeByKey_thawed ht⟩
    · rw [thawRecord_of_hold (hl ▸ hhold) ht]
      have hby : thawedBy t = thawedBy s := by
        funext x; simp only [thawedBy, HearingRecord.thawed, hc, hl]
      rw [hby]
  rw [hall, forEach_modHearing (f := thawedBy s) (fun _ => rfl), recordsThawed]
  congr 1
  refine List.map_congr_left fun x hx => ?_
  by_cases hslot : x.slot = i
  · rw [if_pos ⟨hslot, mem_portsHearing hx hslot⟩, if_pos hslot]
  · rw [if_neg fun h => hslot h.1, if_neg hslot]

theorem forEach_of_fixed {α : Type} {op : α → State → State} (xs : List α) (h : ∀ x, op x s = s) :
    forEach xs op s = s := by
  induction xs with
  | nil => rfl
  | cons x xs ih => rw [forEach_cons, h, ih]

/-- With the thresholds as they were, no comparator moves as the thawed records are compared. -/
theorem evaluate_recordsThawed (hu : ∀ x ∈ s.hearing, x.slot = i → Unmoved s x.comparator (x.est8 / 8))
    (g : PortNo) : evaluate i g (recordsThawed i s) = recordsThawed i s := by
  cases h : hearingOf (recordsThawed i s) i g with
  | none => exact evaluate_of_none h
  | some r =>
    obtain ⟨hm, hslot, -⟩ := hearingOf_some_iff h
    obtain ⟨x, hx, rfl⟩ := List.mem_map.mp hm
    refine evaluate_of_unmoved h ?_
    by_cases hxs : x.slot = i
    · rw [if_pos hxs]; exact hu x hx hxs
    · rw [if_neg hxs] at hslot; exact absurd hslot hxs

/-- The records thaw, nothing moves, and the guide is not frozen. -/
theorem thawedRecords_of_hold (hhold : s.limits.leaveHoldS ≠ 0) (hs : AgreeByKey i s)
    (hu : ∀ x ∈ s.hearing, x.slot = i → Unmoved s x.comparator (x.est8 / 8)) : thawedRecords i s =
      { recordsThawed i s with guideFrozen := s.guideFrozen.set i false } := by
  have heval : forEach (portsHearing (recordsThawed i s) i) (evaluate i) (recordsThawed i s) = recordsThawed i s :=
    forEach_of_fixed _ (evaluate_recordsThawed hu)
  unfold thawedRecords
  dsimp only
  rw [forEach_thawRecord hhold hs, heval]
  rfl

/-- Settles O35: `becomeOut` member or not, the head of the candidates, and a thaw record by record. -/
theorem leavesAndThawsOfferPlaces : Obligations.LeavesAndThawsOfferPlaces := by
  unfold Obligations.LeavesAndThawsOfferPlaces
  refine ⟨fun s i g => ⟨fun r hrun h hfr hc hdue => ?_, fun hg => ?_, fun n hn hg => ?_⟩,
    fun s n => ⟨fun hnothing => ?_, fun r hr ho hroom hguide hin hout hfirst => ?_⟩,
    fun s i => ⟨fun x hx hslot => ?_, fun hhold huniq hu => ?_⟩⟩
  · exact exec_leaveDeadlineExpiry hrun h hfr hc hdue
  · exact becomeOut_of_no_member hg
  · exact ⟨_, leftSet_leaveGallery _ n g, becomeOut_of_member hn hg⟩
  · refine offerPlace_of_fixed (offerOne_of_nothing (hnothing.imp_right (Or.imp_right fun hno => ?_)))
    refine List.eq_nil_iff_forall_not_mem.mpr fun x hx => ?_
    obtain ⟨hx, hg, hi, hn⟩ := mem_candidates.mp hx
    exact hn (hno x hx hg hi)
  · refine ⟨_, joined_joinGallery s n r.port,
      offerPlace_of_head ho hroom (mem_candidates.mpr ⟨hr, hguide, hin, hout⟩) fun x hx hne => ?_⟩
    obtain ⟨hx, hxg, hxi, hxn⟩ := mem_candidates.mp hx
    have hslot : x.slot = r.slot := Option.some.inj (hxg.symm.trans hguide)
    obtain ⟨a, ha, b, hb, hab⟩ := hfirst x hx hslot hxi hxn hne
    exact hab.imp (fun he => ⟨a, ha, b, hb, he⟩) fun ⟨he, hp⟩ => ⟨by rw [ha, hb, he], hp⟩
  · rw [thawGuide_hearing] at hx
    exact Bool.eq_false_iff.mpr fun hfr => List.not_mem_nil (frozenAt_thawedRecords i s x hx hslot hfr)
  · have hagree : AgreeByKey i s := fun x hx hxs y hy hys hp => by rw [huniq x hx hxs y hy hys hp]
    have hthaw := thawedRecords_of_hold hhold hagree hu
    have hserved : servedTour (thawedRecords i s) i = servedTour s i := by rw [hthaw]; rfl
    refine ⟨thawedRecords i s, ?_, fun hn => ?_, fun n hn => ?_⟩
    · rw [hthaw]
      simp only [recordsThawed, thawedBy, HearingRecord.thawed, beq_iff_eq]
    · rw [thawGuide_eq, hserved, hn]
    · rw [thawGuide_eq, hserved, hn]

end Sys2Proof.Machine
end

section
/-! The carriers of a gallery (chapter 6): carry rank, the carrier map, what is done with a carrier, and which one an
allocation takes. -/

namespace Sys2Proof.Machine

open Laws

variable {s : State} {e : Gallery} {f : State → State} {g : PortNo} {c : CarrierNo} {p q : ProgNo} {st : CarrierState}

/-! ### Carry rank (R95) -/

theorem ranksAbove_asymm (h : ranksAbove s p q = true) : ranksAbove s q p = false :=
  Bool.eq_false_iff.mpr fun h' => ranksAbove_irrefl p (ranksAbove_trans h h')

/-- Settles O36: key by key from `ranksAbove_iff`; the order is total and asymmetric. -/
theorem carryRankOrdersPrograms : Obligations.CarryRankOrdersPrograms := by
  unfold Obligations.CarryRankOrdersPrograms
  have hzero (l : LangSlot) : l = 0 ↔ l.val = 0 := Fin.ext_iff
  intro s p q
  refine ⟨fun hprio => ?_, fun hprio hp hq => ?_, fun hprio hlang hsum => ?_, fun hprio hlang hsum => ?_,
    fun hne => ⟨ranksAbove_asymm, fun h => ?_⟩⟩
  · exact ranksAbove_iff.mpr (.inl hprio)
  · exact ranksAbove_iff.mpr (.inr ⟨hprio, .inl ⟨(hzero _).mp hp, mt (hzero _).mpr hq⟩⟩)
  · rw [hzero, hzero] at hlang
    exact ranksAbove_iff.mpr (.inr ⟨hprio, .inr ⟨hlang, .inl hsum⟩⟩)
  · rw [hzero, hzero] at hlang
    rw [ranksAbove_iff, Fin.lt_def]
    omega
  · exact (ranksAbove_total hne).resolve_right (Bool.eq_false_iff.mp h)

/-! ### The carrier map (R108, R110) -/

theorem sendMap_eq (g : PortNo) (s : State) : sendMap g s =
    (handFrame g (.carrierMap (mapView s.galleries[g])) s).modGallery g
      fun e => { e with mapRefresh := some (s.clock + 1000) } := by
  rw [sendMap, State.after, handFrame_clock]
  rfl

theorem mapView_modCarrier (s : State) (g : PortNo) (c : CarrierNo) (x : Carrier) :
    mapView (s.modCarrier g c fun _ => x).galleries[g] = (fins 8).map fun d =>
      if d = c then (x.state, x.program)
      else (s.galleries[g].carriers[d].state, s.galleries[g].carriers[d].program) := by
  refine List.map_congr_left fun d _ => ?_
  by_cases hd : d = c
  · subst hd
    rw [if_pos rfl, modCarrier_carriers_self]
  · have hv : c.val ≠ d.val := fun e => hd (Fin.ext e.symm)
    simp [hd, Vector.getElem_set_ne, hv]

/-- An event that changes state or program of a carrier sends the map (R108). -/
theorem carrierEvent_of_change (c : CarrierNo)
    (h : (f s).galleries[g].carriers[c].state ≠ s.galleries[g].carriers[c].state ∨
      (f s).galleries[g].carriers[c].program ≠ s.galleries[g].carriers[c].program) :
    carrierEvent g f s = sendMap g (f s) := by
  refine if_neg fun hview => ?_
  obtain ⟨hst, hp⟩ := Prod.mk.inj (List.map_eq_map_iff.mp hview c (mem_fins c))
  exact h.elim (· hst) (· hp)

/-- An event that leaves the carriers sends no map (R108). -/
theorem carrierEvent_of_carriers (h : (f s).galleries[g].carriers = s.galleries[g].carriers) :
    carrierEvent g f s = f s :=
  if_pos (by rw [mapView, mapView, h])

/-! ### What is done with a carrier (R98 to R101) -/

theorem goLive_carrier (g : PortNo) (c : CarrierNo) (p : ProgNo) (s : State) :
    (goLive g c p s).galleries[g].carriers[c] = ⟨.live, some p, none, none⟩ := by
  rw [goLive_galleries, modCarrier_carriers_self]

theorem startSettle_of_no_time (h : s.limits.settleMs = 0) : startSettle g c p s = goLive g c p s := if_pos h

theorem startSettle_of_time (h : s.limits.settleMs ≠ 0) : startSettle g c p s = s.modCarrier g c fun _ =>
    ⟨.settling, some p, some (s.after s.limits.settleMs), none⟩ := if_neg h

theorem startSettle_program (g : PortNo) (c : CarrierNo) (p : ProgNo) (s : State) :
    (startSettle g c p s).galleries[g].carriers[c].program = some p := by
  by_cases h : s.limits.settleMs = 0
  · rw [startSettle_of_no_time h, goLive_carrier]
  · rw [startSettle_of_time h, modCarrier_carriers_self]

theorem startSettle_state (g : PortNo) (c : CarrierNo) (p : ProgNo) (s : State) :
    (startSettle g c p s).galleries[g].carriers[c].state = .settling ∨
      (startSettle g c p s).galleries[g].carriers[c].state = .live := by
  by_cases h : s.limits.settleMs = 0
  · rw [startSettle_of_no_time h, goLive_carrier]
    exact .inr rfl
  · rw [startSettle_of_time h, modCarrier_carriers_self]
    exact .inl rfl

theorem putWaiting_carriers (g : PortNo) (p : ProgNo) (s : State) :
    (putWaiting g p s).galleries[g].carriers = s.galleries[g].carriers := by
  rw [putWaiting, queueNotice_galleries, modGallery_galleries_self]

theorem insertBefore_append {α : Type} {b : α → α → Bool} {x : α} {front back : List α}
    (hfront : ∀ y ∈ front, b x y = false) (hback : ∀ y ∈ back.head?, b x y = true) :
    insertBefore b x (front ++ back) = front ++ x :: back := by
  induction front with
  | nil =>
    cases back with
    | nil => rfl
    | cons y ys => exact if_pos (hback y rfl)
  | cons y ys ih =>
    obtain ⟨hy, hys⟩ := List.forall_mem_cons.mp hfront
    rw [List.cons_append, insertBefore, hy, ih hys]
    rfl

/-- A program is put behind the entries it does not rank above, and its notice carries the place (R92, R107). -/
theorem putWaiting_append {front back : List Waiter} (hlist : s.galleries[g].waitList = front ++ back)
    (hfront : ∀ w ∈ front, w.program ≠ p ∧ ranksAbove s p w.program = false)
    (hback : ∀ w ∈ back.head?, ranksAbove s p w.program = true) :
    putWaiting g p s = queueNotice .programUnserved (subjectOf p.val) (subjectOf g.val)
      (BitVec.ofNat 16 (front.length + 1))
      (s.modGallery g fun e => { e with waitList := front ++ ⟨p, s.clock⟩ :: back }) := by
  have hins := insertBefore_append (b := fun x y : Waiter => ranksAbove s x.program y.program) (x := ⟨p, s.clock⟩)
    (fun w hw => (hfront w hw).2) hback
  have hidx : (front ++ (⟨p, s.clock⟩ : Waiter) :: back).findIdx (fun w => w.program == p) = front.length := by
    have hnot : front.findIdx (fun w => w.program == p) = front.length :=
      List.findIdx_eq_length_of_false fun w hw => beq_eq_false_iff_ne.mpr (hfront w hw).1
    rw [List.findIdx_append, hnot, if_neg (Nat.lt_irrefl _), List.findIdx_cons, beq_self_eq_true]
    exact Nat.zero_add _
  rw [putWaiting, hlist, hins, hidx]

/-! ### Which carrier is taken (R98, R99) -/

theorem carrierWith_eq_some (hst : e.carriers[c].state = st) (hp : e.carriers[c].program = some p)
    (hlow : ∀ d < c, e.carriers[d].state ≠ st ∨ e.carriers[d].program ≠ some p) : carrierWith e st p = some c :=
  find?_fins_eq_some (by rw [hst, hp, beq_self_eq_true, beq_self_eq_true]; rfl) fun d hd => by
    rw [Bool.and_eq_false_iff]
    exact (hlow d hd).imp beq_eq_false_iff_ne.mpr beq_eq_false_iff_ne.mpr

theorem carrierWith_eq_none (h : ∀ d : CarrierNo, e.carriers[d].state ≠ st ∨ e.carriers[d].program ≠ some p) :
    carrierWith e st p = none :=
  List.find?_eq_none.mpr fun d _ hd => by
    obtain ⟨hst, hp⟩ := Bool.and_eq_true_iff.mp hd
    exact (h d).elim (· (beq_iff_eq.mp hst)) (· (beq_iff_eq.mp hp))

/-- A carrier that alone holds a program, SETTLING or LIVE, serves it (R97). -/
theorem servingCarrier_eq_some (hp : e.carriers[c].program = some p)
    (hst : e.carriers[c].state = .settling ∨ e.carriers[c].state = .live)
    (hothers : ∀ d : CarrierNo, d ≠ c → e.carriers[d].program ≠ some p) : servingCarrier e p = some c := by
  have hlow (st : CarrierState) : ∀ d < c, e.carriers[d].state ≠ st ∨ e.carriers[d].program ≠ some p :=
    fun d hd => .inr (hothers d hd.ne)
  rcases hst with hst | hst
  · rw [servingCarrier, carrierWith_eq_some hst hp (hlow _)]
  · have hnone : carrierWith e .settling p = none := carrierWith_eq_none fun d => by
      by_cases hd : d = c
      · exact .inl (by rw [hd, hst]; decide)
      · exact .inr (hothers d hd)
    rw [servingCarrier, hnone]
    exact carrierWith_eq_some hst hp (hlow _)

theorem freeCarrier_eq_some (hst : e.carriers[c].state = .free) (hlow : ∀ d < c, e.carriers[d].state ≠ .free) :
    freeCarrier e = some c :=
  find?_fins_eq_some (beq_iff_eq.mpr hst) fun d hd => beq_eq_false_iff_ne.mpr (hlow d hd)

theorem freeCarrier_eq_none (h : ∀ d : CarrierNo, e.carriers[d].state ≠ .free) : freeCarrier e = none :=
  List.find?_eq_none.mpr fun d _ => mt beq_iff_eq.mp (h d)

/-- In a list in order, the best is the member that precedes those before it and that none behind it precedes. -/
theorem bestOf_of_pairwise {α : Type} {b : α → α → Bool} {r : α → α → Prop} {x : α} {l : List α}
    (hl : l.Pairwise r) (hx : x ∈ l) (hbefore : ∀ y ∈ l, r y x → b x y = true)
    (hbehind : ∀ y ∈ l, r x y → b y x = false) : bestOf b l = some x := by
  have hstays (ys : List α) (h : ∀ y ∈ ys, b y x = false) : ys.foldl (fun c y => if b y c then y else c) x = x := by
    induction ys with
    | nil => rfl
    | cons y ys ih =>
      obtain ⟨hy, hys⟩ := List.forall_mem_cons.mp h
      rw [List.foldl_cons, hy]
      exact ih hys
  obtain ⟨front, back, rfl⟩ := List.append_of_mem hx
  obtain ⟨-, hback, hcross⟩ := List.pairwise_append.mp hl
  have hlast : ∀ y ∈ back, b y x = false := fun y hy =>
    hbehind y (by simp [hy]) ((List.pairwise_cons.mp hback).1 y hy)
  cases front with
  | nil => exact congrArg some (hstays back hlast)
  | cons z zs =>
    have hmem := FollowKeeps.bestOf_mem b (z :: zs) _ rfl
    have hwins := hbefore _ (List.mem_append_left _ hmem) (hcross _ hmem x List.mem_cons_self)
    rw [List.cons_append, bestOf, List.foldl_append, List.foldl_cons, if_pos hwins, hstays back hlast]

/-- Of the PARKED carriers the one with the earliest park deadline, the lower number between equals (R98 step 3). -/
theorem earliestParked_eq_some {x : Clock} (hst : e.carriers[c].state = .parked)
    (hx : e.carriers[c].parkDeadline = some x)
    (hfirst : ∀ d : CarrierNo, d ≠ c → e.carriers[d].state = .parked →
      ∃ y, e.carriers[d].parkDeadline = some y ∧ (earlier x y = true ∨ (x = y ∧ c < d))) :
    earliestParked e = some c := by
  have hparked (d : CarrierNo) (hd : d ∈ (fins 8).filter fun c => e.carriers[c].state == .parked) :
      e.carriers[d].state = .parked := beq_iff_eq.mp (List.mem_filter.mp hd).2
  have hsorted : (fins 8).Pairwise (· < ·) := by
    rw [fins_eq_finRange]
    exact List.pairwise_lt_finRange 8
  refine bestOf_of_pairwise (hsorted.filter _) (List.mem_filter.mpr ⟨mem_fins c, beq_iff_eq.mpr hst⟩)
    (fun d hd hdc => ?_) fun d hd hcd => ?_
  · obtain ⟨y, hy, hxy⟩ := hfirst d hdc.ne (hparked d hd)
    simpa only [parkBefore, hx, hy] using hxy.resolve_right fun h => hdc.asymm h.2
  · obtain ⟨y, hy, hxy⟩ := hfirst d hcd.ne' (hparked d hd)
    simp only [parkBefore, hx, hy]
    rcases hxy with hxy | ⟨rfl, -⟩
    · exact (earlier_asymm hxy).1
    · exact Bool.eq_false_iff.mpr fun h => (earlier_asymm h).2 rfl

theorem earliestParked_eq_none (h : ∀ d : CarrierNo, e.carriers[d].state ≠ .parked) : earliestParked e = none := by
  rw [earliestParked, List.filter_eq_nil_iff.mpr fun d _ => mt beq_iff_eq.mp (h d)]
  rfl

/-- The occupant that every other ranks above is the lowest (R99). -/
theorem lowestOccupant_eq_some (hq : e.carriers[c].program = some q)
    (hothers : ∀ d : CarrierNo, d ≠ c → ∀ q', e.carriers[d].program = some q' → ranksAbove s q' q = true) :
    lowestOccupant s e = some (c, q) := by
  refine bestOf_eq_some (List.mem_filterMap.mpr ⟨c, mem_fins c, by rw [hq]; rfl⟩) fun x hx hne => ?_
  obtain ⟨d, -, hd⟩ := List.mem_filterMap.mp hx
  obtain ⟨q', hq', rfl⟩ := Option.map_eq_some_iff.mp hd
  have hdc : d ≠ c := by
    rintro rfl
    exact hne (by rw [Option.some.inj (hq.symm.trans hq')])
  have hrank := hothers d hdc q' hq'
  exact ⟨hrank, ranksAbove_asymm hrank⟩

end Sys2Proof.Machine
end

section
/-! Demand arrival and end on a gallery, the order of the wait lists, and the deadlines of the carrier unit. -/

namespace Sys2Proof.Machine

variable {s : State} {g : PortNo} {c : CarrierNo} {p q : ProgNo}

/-! ### Demand arrival (R97 to R101) -/

theorem demandArrival_of_served (h : ServedOrWaiting s p g) : demandArrival p g s = s :=
  if_pos (Bool.or_eq_true_iff.mpr h)

theorem demandArrival_of_not_served (h : ¬ ServedOrWaiting s p g) :
    demandArrival p g s = carrierEvent g (allocate g p) s :=
  if_neg (mt Bool.or_eq_true_iff.mp h)

theorem allocate_own_parked (h : carrierWith s.galleries[g] .parked p = some c) : allocate g p s = goLive g c p s := by
  rw [allocate, h]

theorem allocate_free (hown : carrierWith s.galleries[g] .parked p = none)
    (h : freeCarrier s.galleries[g] = some c) : allocate g p s = startSettle g c p s := by
  rw [allocate, hown, h]

theorem allocate_parked (hown : carrierWith s.galleries[g] .parked p = none)
    (hfree : freeCarrier s.galleries[g] = none) (h : earliestParked s.galleries[g] = some c) :
    allocate g p s = startSettle g c p s := by
  rw [allocate, hown, hfree, h]

theorem allocate_occupied (hown : carrierWith s.galleries[g] .parked p = none)
    (hfree : freeCarrier s.galleries[g] = none) (hparked : earliestParked s.galleries[g] = none)
    (h : lowestOccupant s s.galleries[g] = some (c, q)) : allocate g p s =
      if ranksAbove s p q then putWaiting g q (startSettle g c p s) else putWaiting g p s := by
  rw [allocate, hown, hfree, hparked, preemptOrWait, h]

/-- An arrival that settles a carrier which was FREE or PARKED sends the map. -/
theorem demandArrival_settles (hs : ¬ ServedOrWaiting s p g) (halloc : allocate g p s = startSettle g c p s)
    (hst : s.galleries[g].carriers[c].state = .free ∨ s.galleries[g].carriers[c].state = .parked) :
    demandArrival p g s = sendMap g (startSettle g c p s) := by
  rw [demandArrival_of_not_served hs, carrierEvent_of_change c, halloc]
  rw [halloc]
  refine .inl fun he => ?_
  have hnew := startSettle_state g c p s
  rw [he] at hnew
  rcases hst with h | h <;> rw [h] at hnew <;> simp at hnew

/-- Settles O37: the carrier each step of `allocate` takes, and whether it changes. -/
theorem demandArrivalAllocates : Obligations.DemandArrivalAllocates := by
  unfold Obligations.DemandArrivalAllocates
  intro s p g
  refine ⟨demandArrival_of_served, fun hs => ⟨fun c hst hp hlow => ?_, fun hown => ⟨fun c hst hlow => ?_,
    fun c x hfree hst hx hfirst => ?_, fun c q hocc hq hothers => ?_⟩⟩,
    fun c => ⟨startSettle_of_time, startSettle_of_no_time⟩, fun front back => putWaiting_append⟩
  · have halloc := allocate_own_parked (carrierWith_eq_some hst hp hlow)
    rw [demandArrival_of_not_served hs, carrierEvent_of_change c, halloc]
    · rfl
    · rw [halloc, goLive_carrier, hst]
      exact .inl nofun
  · exact demandArrival_settles hs (allocate_free (carrierWith_eq_none hown) (freeCarrier_eq_some hst hlow)) (.inl hst)
  · exact demandArrival_settles hs (allocate_parked (carrierWith_eq_none hown) (freeCarrier_eq_none hfree)
      (earliestParked_eq_some hst hx hfirst)) (.inr hst)
  · have hbusy (d : CarrierNo) : s.galleries[g].carriers[d].state ≠ .free ∧
        s.galleries[g].carriers[d].state ≠ .parked := by
      rcases hocc d with h | h <;> rw [h] <;> decide
    have halloc := allocate_occupied (carrierWith_eq_none hown) (freeCarrier_eq_none fun d => (hbusy d).1)
      (earliestParked_eq_none fun d => (hbusy d).2) (lowestOccupant_eq_some hq hothers)
    rw [demandArrival_of_not_served hs]
    refine ⟨fun hrank => ?_, fun hrank => ?_⟩
    · rw [if_pos hrank] at halloc
      rw [carrierEvent_of_change c, halloc]
      rw [halloc, putWaiting_carriers, startSettle_program, hq]
      refine .inr fun he => ?_
      rw [Option.some.inj he] at hrank
      exact ranksAbove_irrefl q hrank
    · rw [if_neg (Bool.eq_false_iff.mp hrank)] at halloc
      rw [carrierEvent_of_carriers, halloc]
      rw [halloc, putWaiting_carriers]

/-! ### Demand end (R103 to R105) -/

theorem demandEnd_of_waiting (h : isWaiting s.galleries[g] p = true) : demandEnd p g s =
    s.modGallery g fun e => { e with waitList := e.waitList.filter fun w => w.program ≠ p } := by
  rw [demandEnd, if_pos h]
  simp only [ne_eq, decide_not, beq_eq_decide]

theorem demandEnd_of_not_served (h : ¬ ServedOrWaiting s p g) : demandEnd p g s = s := by
  obtain ⟨hserved, hwaits⟩ := not_or.mp h
  rw [demandEnd, if_neg hwaits, Option.not_isSome_iff_eq_none.mp hserved]

theorem demandEnd_of_serving (hw : isWaiting s.galleries[g] p = false)
    (h : servingCarrier s.galleries[g] p = some c) :
    demandEnd p g s = carrierEvent g (releaseCarrier g c p) s := by
  rw [demandEnd, hw, h]
  rfl

theorem releaseCarrier_of_waiter {w : Waiter} {rest : List Waiter} (h : s.galleries[g].waitList = w :: rest) :
    releaseCarrier g c p s = handOver g c w rest s := by rw [releaseCarrier, h]

theorem releaseCarrier_of_empty (h : s.galleries[g].waitList = []) :
    releaseCarrier g c p s = parkCarrier g c p s := by rw [releaseCarrier, h]

theorem parkCarrier_of_no_time (h : s.limits.parkS = 0) :
    parkCarrier g c p s = s.modCarrier g c fun _ => Carrier.free := if_pos h

theorem parkCarrier_of_time (h : s.limits.parkS ≠ 0) : parkCarrier g c p s = s.modCarrier g c fun _ =>
    ⟨.parked, some p, none, some (s.after (s.limits.parkS * 1000))⟩ := if_neg h

theorem handOver_program (g : PortNo) (c : CarrierNo) (w : Waiter) (rest : List Waiter) (s : State) :
    (handOver g c w rest s).galleries[g].carriers[c].program = some w.program := startSettle_program g c _ _

/-- Entries of different programs are in order after the move, if those that stay are (R96). -/
theorem movedBy_pairwise_of_rest {ps : List ProgNo} {l : List Waiter} (hd : (l.map (·.program)).Nodup)
    (hrest : (l.filter fun w => !ps.contains w.program).Pairwise
      fun x y => ranksAbove s x.program y.program = true) :
    (movedBy s ps l).Pairwise fun x y => ranksAbove s x.program y.program = true :=
  placedAll_pairwise (((List.filter_append_perm _ l).map _).nodup_iff.mpr hd) hrest

/-- Settles O38: the released carrier by the head of the wait list, and the lists by `rerank_eq`. -/
theorem demandEndReleasesTheCarrier : Obligations.DemandEndReleasesTheCarrier := by
  unfold Obligations.DemandEndReleasesTheCarrier
  refine ⟨fun s p g => ⟨demandEnd_of_waiting, demandEnd_of_not_served, fun c hwaits hp hst hothers => ?_⟩,
    fun s ps => ⟨(rerank_eq ps s).1, fun g => ?_⟩⟩
  · have hend := demandEnd_of_serving hwaits (servingCarrier_eq_some hp hst hothers)
    refine ⟨fun w rest hlist => ?_, fun hlist => ⟨fun hpark => ?_, fun hpark => ?_⟩⟩
    · have hrel := releaseCarrier_of_waiter (c := c) (p := p) hlist
      have hne : w.program ≠ p := by
        rw [isWaiting, List.any_eq_false] at hwaits
        exact mt beq_iff_eq.mpr (hwaits w (by rw [hlist]; exact List.mem_cons_self))
      rw [hend, carrierEvent_of_change c, hrel]
      · rfl
      · rw [hrel, handOver_program, hp]
        exact .inr fun he => hne (Option.some.inj he)
    · have hrel := (releaseCarrier_of_empty (c := c) (p := p) hlist).trans (parkCarrier_of_no_time hpark)
      rw [hend, carrierEvent_of_change c, hrel]
      · rfl
      · rw [hrel, modCarrier_carriers_self, hp]
        exact .inr nofun
    · have hrel := (releaseCarrier_of_empty (c := c) (p := p) hlist).trans (parkCarrier_of_time hpark)
      rw [hend, carrierEvent_of_change c, hrel]
      · rfl
      · rw [hrel, modCarrier_carriers_self]
        refine .inl fun he => ?_
        rcases hst with h | h <;> rw [h] at he <;> cases he
  · have hg := (rerank_eq ps s).2 g
    rw [hg]
    exact ⟨rfl, movedBy_perm s ps _, movedBy_pairwise_of_rest⟩

/-! ### The deadlines of the carrier unit (R102, R106, R109) -/

theorem settleExpiry_of_due (hst : s.galleries[g].carriers[c].state = .settling)
    (hp : s.galleries[g].carriers[c].program = some p)
    (hdue : s.due s.galleries[g].carriers[c].settleDeadline = true) :
    settleExpiry g c s = sendMap g (goLive g c p s) := by
  rw [settleExpiry, hst, hp]
  refine (if_pos hdue).trans (carrierEvent_of_change c (.inl ?_))
  rw [goLive_carrier, hst]
  nofun

theorem parkExpiry_of_due (hst : s.galleries[g].carriers[c].state = .parked)
    (hdue : s.due s.galleries[g].carriers[c].parkDeadline = true) :
    parkExpiry g c s = sendMap g (s.modCarrier g c fun _ => Carrier.free) := by
  refine (if_pos ⟨hst, hdue⟩).trans (carrierEvent_of_change c (.inl ?_))
  rw [modCarrier_carriers_self, hst]
  nofun

theorem mapRefreshExpiry_of_due (hdue : s.due s.galleries[g].mapRefresh = true) :
    mapRefreshExpiry g s = sendMap g s := if_pos hdue

/-- Settles O39: each expiry ends in `sendMap`, and the map shows the changed carrier. -/
theorem carrierDeadlinesSendTheMap : Obligations.CarrierDeadlinesSendTheMap := by
  unfold Obligations.CarrierDeadlinesSendTheMap
  intro s g c hrun
  refine ⟨fun p hst hp hdue => ?_, fun hst hdue => ?_, fun hdue => ?_⟩
  · refine (running_of_running s hrun).trans ?_
    rw [settleExpiry_of_due hst hp hdue, sendMap_eq, goLive_galleries, mapView_modCarrier, goLive, carrierReady,
      queueNotice_clock]
    rfl
  · refine (running_of_running s hrun).trans ?_
    rw [parkExpiry_of_due hst hdue, sendMap_eq, mapView_modCarrier]
    rfl
  · refine (running_of_running s hrun).trans ?_
    rw [mapRefreshExpiry_of_due hdue, sendMap_eq]
    rfl

end Sys2Proof.Machine
end

section
/-! The rules of the fleet's state: records, racks and lists of operations. -/

namespace Sys2Proof.Machine

open Laws

variable {P : State → Prop} {s t u : State} {g h : PortNo} {k j : RackSlot} {r x : RecNo}

/-! ### Lists of operations -/

theorem forEach_append {α : Type} (xs ys : List α) (f : α → State → State) (s : State) :
    forEach (xs ++ ys) f s = forEach ys f (forEach xs f s) := List.foldl_append

theorem forEach_map {α β : Type} (m : β → α) (xs : List β) (f : α → State → State) (s : State) :
    forEach (xs.map m) f s = forEach xs (fun y => f (m y)) s := List.foldl_map

/-- An operation that looks at no index, run once more than `n` times. -/
theorem forEach_range_succ (n : Nat) (f : State → State) (s : State) :
    forEach (List.range (n + 1)) (fun _ => f) s = forEach (List.range n) (fun _ => f) (f s) := by
  rw [List.range_succ_eq_map, forEach_cons, forEach_map]

/-! ### One rack, one slot, one record -/

theorem modRack_racks_self (s : State) (g : PortNo) (f : Rack → Rack) : (s.modRack g f).racks[g] = f s.racks[g] := by
  simp

theorem modRack_racks_ne (s : State) (hne : g ≠ h) (f : Rack → Rack) : (s.modRack g f).racks[h] = s.racks[h] := by
  have hv : g.val ≠ h.val := fun e => hne (Fin.ext e)
  simp [Vector.getElem_set_ne, hv]

theorem modReceiver_self (s : State) (r : RecNo) (f : Receiver → Receiver) :
    (s.modReceiver r f).receivers[r] = f s.receivers[r] := by simp

theorem modReceiver_ne (s : State) (hne : r ≠ x) (f : Receiver → Receiver) :
    (s.modReceiver r f).receivers[x] = s.receivers[x] := by
  have hv : r.val ≠ x.val := fun e => hne (Fin.ext e)
  simp [Vector.getElem_set_ne, hv]

theorem getElem_set_ite {α : Type} {n : Nat} (v : Vector α n) (i j : Fin n) (x : α) :
    (v.set i x)[j] = if i = j then x else v[j] := by
  simp only [Fin.getElem_fin, Vector.getElem_set, Fin.ext_iff]

/-- What a rack keeps while receivers are served: all but grants, queues, the order in flight and the UNKEYs owed. -/
def RackKept (e e' : Rack) : Prop :=
  (e'.online, e'.inventory, e'.inventoryDeadline, e'.grantLimit, e'.generation) =
    (e.online, e.inventory, e.inventoryDeadline, e.grantLimit, e.generation) ∧
    ∀ k : RackSlot, e'.slots[k].occupant = e.slots[k].occupant

theorem RackKept.refl (e : Rack) : RackKept e e := ⟨rfl, fun _ => rfl⟩

theorem RackKept.trans {a b c : Rack} (h : RackKept a b) (h' : RackKept b c) : RackKept a c :=
  ⟨h'.1.trans h.1, fun k => (h'.2 k).trans (h.2 k)⟩

theorem RackKept.online {e e' : Rack} (h : RackKept e e') : e'.online = e.online := (Prod.mk.inj h.1).1

theorem rackKept_withWaiting (e : Rack) (w : List KeyOrder) : RackKept e (e.withWaiting w) := ⟨rfl, fun _ => rfl⟩

theorem rackKept_owe (e : Rack) (k : RackSlot) (b : Bool) : RackKept e (e.owe k b) := by
  refine ⟨rfl, fun j => ?_⟩
  rw [Rack.owe, getElem_set_ite]
  split
  · next h => rw [h]
  · rfl

theorem rackKept_placeKey (k : RackSlot) (p : ProgNo) (e : Rack) : RackKept e (e.placeKey k p) :=
  (rackKept_withWaiting e _).trans (rackKept_owe _ k false)

theorem rackKept_placeUnkey (k : RackSlot) (e : Rack) : RackKept e (e.placeUnkey k) :=
  (rackKept_withWaiting e _).trans (rackKept_owe _ k true)

/-- The order in flight stands before those that wait. -/
theorem flying_append_waiting (e : Rack) : e.flying.toList ++ e.waiting = e.keyQueue := by
  unfold Rack.flying Rack.waiting
  split
  · cases e.keyQueue <;> rfl
  · rfl

/-- Orders placed behind those that wait stand at the tail of the queue. -/
theorem keyQueue_withWaiting_append (e : Rack) (l : List KeyOrder) :
    (e.withWaiting (e.waiting ++ l)).keyQueue = e.keyQueue ++ l := by
  rw [Rack.withWaiting, ← List.append_assoc, flying_append_waiting]

theorem keyQueue_placeUnkey (k : RackSlot) (e : Rack) :
    (e.placeUnkey k).keyQueue = if .unkey k ∈ e.waiting then e.keyQueue else e.keyQueue ++ [.unkey k] := by
  have hcontains : e.waiting.contains (.unkey k) = true ↔ .unkey k ∈ e.waiting := List.contains_iff_mem
  show (e.withWaiting _).keyQueue = _
  by_cases h : .unkey k ∈ e.waiting
  · rw [if_pos h, if_pos (hcontains.mpr h)]
    exact flying_append_waiting e
  · rw [if_neg h, if_neg (mt hcontains.mp h), keyQueue_withWaiting_append]

theorem mem_keyQueue_placeUnkey (k : RackSlot) (e : Rack) : .unkey k ∈ (e.placeUnkey k).keyQueue := by
  rw [keyQueue_placeUnkey]
  split
  · next h => exact flying_append_waiting e ▸ List.mem_append_right _ h
  · exact List.mem_append_right _ List.mem_cons_self

/-- A KEY placed stands in the queue, and no KEY leaves it for another. -/
theorem mem_keyQueue_placeKey (k : RackSlot) (p : ProgNo) (e : Rack) : .key k p ∈ (e.placeKey k p).keyQueue := by
  refine List.mem_append_right _ ?_
  split
  · next h => exact List.mem_map.mpr ⟨.unkey k, List.contains_iff_mem.mp h, if_pos rfl⟩
  · exact List.mem_append_right _ List.mem_cons_self

theorem mem_keyQueue_placeKey_of_mem {p q : ProgNo} {e : Rack} (h : .key j q ∈ e.keyQueue) :
    .key j q ∈ (e.placeKey k p).keyQueue := by
  rw [← flying_append_waiting, List.mem_append] at h
  refine List.mem_append.mpr (h.imp_right fun hw => ?_)
  split
  · exact List.mem_map.mpr ⟨.key j q, hw, if_neg KeyOrder.noConfusion⟩
  · exact List.mem_append_left _ hw

end Sys2Proof.Machine
end

section
/-! Selection (R121): which receivers of the pool are taken for which orders, and what that changes. -/

namespace Sys2Proof.Machine

open Laws

variable {P : State → Prop} {s t u : State} {g h : PortNo} {k j : RackSlot} {r y : RecNo} {o : OutfitOrder}

/-! ### One receiver taken for an order -/

/-- The hub with another pool. -/
def State.withPool (s : State) (l : List RecNo) : State := { s with pool := l }

/-- A receiver selected for an order is KEYING for it. -/
def ReceiverData.selectedFor (o : OutfitOrder) (d : ReceiverData) : ReceiverData :=
  { d with state := .keying, keyedProgram := some o.program, outfit := some o.number }

/-- A receiver taken for an order: its record, the KEY for its slot, and the order's S (R121 steps 1 to 3). -/
def takeFor (x : OutfitOrder × RecNo) (s : State) : State :=
  modOrder x.1.number (fun o => { o with selected := o.selected + 1 })
    (placeKeyFor x.2 x.1.program (s.changeReceiver x.2 (ReceiverData.selectedFor x.1)))

theorem selectHead_of_cons {rest : List RecNo} (h : s.pool = r :: rest) (o : OutfitOrder) :
    selectHead o s = takeFor (o, r) (s.withPool rest) := by
  unfold selectHead
  rw [h]
  rfl

theorem selectHead_of_nil (h : s.pool = []) (o : OutfitOrder) : selectHead o s = s := by
  unfold selectHead
  rw [h]

/-- What the KEY for a receiver changes: the rack it is docked in. -/
theorem placeKeyFor_eq (r : RecNo) (p : ProgNo) (s : State) : placeKeyFor r p s = { s with
    racks := (placeOf s r).elim s.racks fun x => s.racks.set x.1 (s.racks[x.1].placeKey x.2 p) } := by
  unfold placeKeyFor
  cases placeOf s r <;> rfl

theorem placeOf_eq (s : State) (r : RecNo) : placeOf s r = s.receivers[r].data.bind (·.place) := by
  unfold placeOf
  cases s.receivers[r].data <;> rfl

theorem placeOf_changeReceiver {f : ReceiverData → ReceiverData} (hf : ∀ d, (f d).place = d.place) (s : State)
    (r y : RecNo) : placeOf (s.changeReceiver r f) y = placeOf s y := by
  rw [placeOf_eq, placeOf_eq]
  by_cases h : r = y
  · subst h
    rw [changeReceiver_self]
    cases s.receivers[r].data with
    | none => rfl
    | some d => exact hf d
  · rw [changeReceiver_ne _ h]

/-- What becomes of the hub as a receiver is taken for an order. -/
theorem takeFor_eq (x : OutfitOrder × RecNo) (s : State) : takeFor x s = { s with
    receivers := (s.changeReceiver x.2 (ReceiverData.selectedFor x.1)).receivers
    racks := (placeOf s x.2).elim s.racks fun z => s.racks.set z.1 (s.racks[z.1].placeKey z.2 x.1.program)
    outfits := s.outfits.map fun o =>
      if o.number = x.1.number then { o with selected := o.selected + 1 } else o } := by
  rw [takeFor, placeKeyFor_eq, placeOf_changeReceiver (f := ReceiverData.selectedFor x.1) fun _ => rfl]
  rfl

theorem takeFor_withPool (x : OutfitOrder × RecNo) (s : State) (l : List RecNo) :
    takeFor x (s.withPool l) = (takeFor x s).withPool l := by
  rw [takeFor_eq, takeFor_eq]
  rfl

theorem forEach_takeFor_withPool (xs : List (OutfitOrder × RecNo)) (s : State) (l : List RecNo) :
    forEach xs takeFor (s.withPool l) = (forEach xs takeFor s).withPool l := by
  induction xs generalizing s with
  | nil => rfl
  | cons x xs ih => rw [forEach_cons, forEach_cons, takeFor_withPool, ih]

/-! ### Who is taken for what (R121) -/

/-- The receivers that a pool gives to these orders, each with its order, oldest order first. -/
def assigned : List OutfitOrder → List RecNo → List (OutfitOrder × RecNo)
  | [], _ => []
  | o :: os, pool => (pool.take o.shortfall).map (o, ·) ++ assigned os (pool.drop o.shortfall)

/-- How many receivers these orders want in all. -/
def needOf (os : List OutfitOrder) : Nat := (os.map OutfitOrder.shortfall).sum

theorem needOf_cons (o : OutfitOrder) (os : List OutfitOrder) : needOf (o :: os) = o.shortfall + needOf os := rfl

theorem assigned_append (os os' : List OutfitOrder) (pool : List RecNo) :
    assigned (os ++ os') pool = assigned os pool ++ assigned os' (pool.drop (needOf os)) := by
  induction os generalizing pool with
  | nil => rfl
  | cons o os ih => rw [List.cons_append, assigned, ih, assigned, List.append_assoc, List.drop_drop, needOf_cons]

/-- Those taken are the head of the pool. -/
theorem map_snd_assigned (os : List OutfitOrder) (pool : List RecNo) :
    (assigned os pool).map Prod.snd = pool.take (needOf os) := by
  induction os generalizing pool with
  | nil => rfl
  | cons o os ih =>
    rw [assigned, List.map_append, List.map_map, ih, needOf_cons, List.take_add]
    exact congrArg (· ++ _) (List.map_id _)

theorem fst_mem_of_mem_assigned {os : List OutfitOrder} {pool : List RecNo} {x : OutfitOrder × RecNo}
    (hx : x ∈ assigned os pool) : x.1 ∈ os := by
  induction os generalizing pool with
  | nil => exact absurd hx List.not_mem_nil
  | cons o os ih =>
    rcases List.mem_append.mp hx with hx | hx
    · obtain ⟨r, -, rfl⟩ := List.mem_map.mp hx
      exact List.mem_cons_self
    · exact List.mem_cons_of_mem _ (ih hx)

theorem snd_mem_of_mem_assigned {os : List OutfitOrder} {pool : List RecNo} {x : OutfitOrder × RecNo}
    (hx : x ∈ assigned os pool) : x.2 ∈ pool :=
  List.mem_of_mem_take (map_snd_assigned os pool ▸ List.mem_map_of_mem hx)

theorem fillOrder_eq (o : OutfitOrder) (s : State) : fillOrder o s =
    forEach ((s.pool.take o.shortfall).map (o, ·)) takeFor (s.withPool (s.pool.drop o.shortfall)) := by
  unfold fillOrder
  generalize o.shortfall = n
  rw [forEach_map]
  induction n generalizing s with
  | zero => rfl
  | succ n ih =>
    rw [forEach_range_succ]
    cases hp : s.pool with
    | nil => rw [selectHead_of_nil hp, ih, hp, List.take_nil, List.take_nil, List.drop_nil, List.drop_nil]
    | cons r rest =>
      rw [selectHead_of_cons hp, ih, takeFor_withPool, List.take_succ_cons, forEach_cons, List.drop_succ_cons,
        takeFor_withPool]
      rfl

/-- Selection takes the head of the pool, receiver by receiver, each for its order (R121). -/
theorem runSelection_eq (s : State) : runSelection s =
    (forEach (assigned s.outfits s.pool) takeFor s).withPool (s.pool.drop (needOf s.outfits)) := by
  have hfill (os : List OutfitOrder) (s : State) : forEach os fillOrder s =
      (forEach (assigned os s.pool) takeFor s).withPool (s.pool.drop (needOf os)) := by
    induction os generalizing s with
    | nil => rfl
    | cons o os ih =>
      rw [forEach_cons, fillOrder_eq, forEach_takeFor_withPool, ih, assigned, forEach_append, needOf_cons]
      rw [forEach_takeFor_withPool, ← List.drop_drop]
      rfl
  exact hfill _ s

/-! ### What selection changes -/

/-- Only records, racks and orders differ. -/
def OnlyTaken (s t : State) : Prop :=
  t = { s with receivers := t.receivers, racks := t.racks, outfits := t.outfits }

theorem onlyTaken_forEach (xs : List (OutfitOrder × RecNo)) (s : State) : OnlyTaken s (forEach xs takeFor s) :=
  forEach_keeps (P := OnlyTaken s) xs (fun x t ht => by rw [OnlyTaken, takeFor_eq, ht]) s rfl

theorem runSelection_frame (s : State) : runSelection s = { s with
    pool := (runSelection s).pool, outfits := (runSelection s).outfits
    receivers := (runSelection s).receivers, racks := (runSelection s).racks } := by
  rw [runSelection_eq, onlyTaken_forEach]
  rfl

theorem runSelection_pool (s : State) : (runSelection s).pool = s.pool.drop (needOf s.outfits) := by
  rw [runSelection_eq]
  rfl

theorem forEach_takeFor_outfits (xs : List (OutfitOrder × RecNo)) (s : State) : (forEach xs takeFor s).outfits =
    s.outfits.map fun o => { o with selected := o.selected + xs.countP fun x => o.number = x.1.number } := by
  induction xs generalizing s with
  | nil => exact (List.map_id _).symm
  | cons x xs ih =>
    rw [forEach_cons, ih, takeFor_eq, List.map_map]
    refine List.map_congr_left fun o _ => ?_
    by_cases h : o.number = x.1.number
    · simp [h, Nat.add_assoc, Nat.add_comm]
    · simp [h]

/-- Selection raises S of the orders, and changes nothing else of them. -/
theorem runSelection_outfits (s : State) : (runSelection s).outfits = s.outfits.map fun o =>
    { o with selected := o.selected + (assigned s.outfits s.pool).countP fun x => o.number = x.1.number } := by
  rw [runSelection_eq]
  exact forEach_takeFor_outfits _ s

/-- Orders and pool after a selection are decided by orders and pool before it. -/
theorem selectedFrom_runSelection {orders : List OutfitOrder} {pool : List RecNo} (s : State)
    (ho : t.outfits = orders) (hp : t.pool = pool) : SelectedFrom s (runSelection t) orders pool := by
  subst ho hp
  exact ⟨by rw [runSelection_outfits, runSelection_outfits], by rw [runSelection_pool, runSelection_pool]⟩

theorem runSelection_of_no_orders (h : s.outfits = []) : runSelection s = s := by
  unfold runSelection
  rw [h]
  rfl

theorem assigned_nil (os : List OutfitOrder) : assigned os [] = [] := by
  induction os with
  | nil => rfl
  | cons o os ih => rw [assigned, List.take_nil, List.drop_nil, ih, List.map_nil, List.nil_append]

theorem runSelection_of_no_pool (h : s.pool = []) : runSelection s = s := by
  rw [runSelection_eq, h, assigned_nil, List.drop_nil]
  show s.withPool [] = s
  rw [← h]
  rfl

theorem takeFor_receivers_ne {x : OutfitOrder × RecNo} (h : x.2 ≠ r) (s : State) :
    (takeFor x s).receivers[r] = s.receivers[r] := by
  rw [takeFor_eq]
  exact changeReceiver_ne s h _

theorem forEach_takeFor_receivers_ne {xs : List (OutfitOrder × RecNo)} (h : r ∉ xs.map Prod.snd) (s : State) :
    (forEach xs takeFor s).receivers[r] = s.receivers[r] :=
  forEach_keeps_mem (P := fun t => t.receivers[r] = s.receivers[r]) xs (fun x hx t ht =>
    (takeFor_receivers_ne (fun e => h (List.mem_map.mpr ⟨x, hx, e⟩)) t).trans ht) s rfl

/-- The record of a receiver that is not taken stays. -/
theorem runSelection_receivers_of_not_taken (h : r ∉ s.pool.take (needOf s.outfits)) :
    (runSelection s).receivers[r] = s.receivers[r] := by
  rw [runSelection_eq]
  exact forEach_takeFor_receivers_ne (by rwa [map_snd_assigned]) s

theorem runSelection_receivers_of_not_mem (h : r ∉ s.pool) : (runSelection s).receivers[r] = s.receivers[r] :=
  runSelection_receivers_of_not_taken fun hr => h (List.mem_of_mem_take hr)

/-- A receiver is left alone, or is taken for one of the orders. -/
theorem runSelection_receivers (s : State) (r : RecNo) : (runSelection s).receivers[r] = s.receivers[r] ∨
    r ∈ s.pool ∧ ∃ o ∈ s.outfits, (runSelection s).receivers[r].data =
      s.receivers[r].data.map (ReceiverData.selectedFor o) := by
  rw [runSelection_eq]
  refine forEach_keeps_mem (P := fun t => t.receivers[r] = s.receivers[r] ∨ r ∈ s.pool ∧ ∃ o ∈ s.outfits,
    t.receivers[r].data = s.receivers[r].data.map (ReceiverData.selectedFor o)) _ (fun x hx t ht => ?_) s (.inl rfl)
  by_cases hr : x.2 = r
  · subst hr
    refine .inr ⟨snd_mem_of_mem_assigned hx, x.1, fst_mem_of_mem_assigned hx, ?_⟩
    rw [takeFor_eq]
    refine (changeReceiver_self t x.2 _).trans ?_
    rcases ht with ht | ⟨-, o, -, ht⟩
    · rw [ht]
    · rw [ht, Option.map_map]
      rfl
  · rwa [takeFor_receivers_ne hr]

theorem takeFor_racks (x : OutfitOrder × RecNo) (s : State) (g : PortNo) : (takeFor x s).racks[g] = s.racks[g] ∨
    ∃ k, placeOf s x.2 = some (g, k) ∧ (takeFor x s).racks[g] = s.racks[g].placeKey k x.1.program := by
  rw [takeFor_eq]
  cases hp : placeOf s x.2 with
  | none => exact .inl rfl
  | some z =>
    obtain ⟨h, k⟩ := z
    by_cases hg : h = g
    · subst hg
      exact .inr ⟨k, rfl, modRack_racks_self s h _⟩
    · exact .inl (modRack_racks_ne s hg _)

theorem placeOf_takeFor (x : OutfitOrder × RecNo) (s : State) (r : RecNo) : placeOf (takeFor x s) r = placeOf s r := by
  rw [takeFor_eq]
  exact placeOf_changeReceiver (f := ReceiverData.selectedFor x.1) (fun _ => rfl) s x.2 r

/-- A rack that no pool member is docked in stays as it is. -/
theorem runSelection_racks_of_no_member (h : ∀ r ∈ s.pool, ∀ k, placeOf s r ≠ some (g, k)) :
    (runSelection s).racks[g] = s.racks[g] := by
  rw [runSelection_eq]
  refine (forEach_keeps_mem (P := fun t => t.racks[g] = s.racks[g] ∧ ∀ r, placeOf t r = placeOf s r) _
    (fun x hx t ht => ?_) s ⟨rfl, fun _ => rfl⟩).1
  obtain ⟨hrack, hplace⟩ := ht
  refine ⟨((takeFor_racks x t g).resolve_right ?_).trans hrack, fun r => (placeOf_takeFor x t r).trans (hplace r)⟩
  rintro ⟨k, hk, -⟩
  exact h x.2 (snd_mem_of_mem_assigned hx) k (hplace x.2 ▸ hk)

theorem mem_keyQueue_takeFor {q : ProgNo} (x : OutfitOrder × RecNo) (h : .key k q ∈ s.racks[g].keyQueue) :
    .key k q ∈ (takeFor x s).racks[g].keyQueue := by
  rcases takeFor_racks x s g with he | ⟨j, -, he⟩
  · rwa [he]
  · rw [he]
    exact mem_keyQueue_placeKey_of_mem h

end Sys2Proof.Machine
end

section
/-! The order of ready pool and charge queue (R118, R137), and a receiver's place in them. -/

namespace Sys2Proof.Machine

open Laws

variable {s t u : State} {g h : PortNo} {k j : RackSlot} {r x y : RecNo} {d e : ReceiverData}

/-! ### What docking and reports set of a receiver -/

/-- What of a receiver selection, charging and key orders leave alone. -/
def ReceiverData.standing (d : ReceiverData) :
    BitVec 24 × Option (PortNo × RackSlot) × Option Clock × Nat × Option Clock × Option Clock × Bool :=
  (d.id, d.place, d.dockStamp, d.battery, d.issueStamp, d.loanDeadline, d.unconfirmed)

theorem standing_eq_iff : d.standing = e.standing ↔ d.id = e.id ∧ d.place = e.place ∧ d.dockStamp = e.dockStamp ∧
    d.battery = e.battery ∧ d.issueStamp = e.issueStamp ∧ d.loanDeadline = e.loanDeadline ∧
    d.unconfirmed = e.unconfirmed := by
  simp only [ReceiverData.standing, Prod.mk.injEq]

/-- The same records hold receivers, and these stand alike. -/
def SameStanding (s t : State) : Prop :=
  ∀ r : RecNo, t.receivers[r].data.map ReceiverData.standing = s.receivers[r].data.map ReceiverData.standing

theorem SameStanding.symm (hs : SameStanding s t) : SameStanding t s := fun r => (hs r).symm

theorem SameStanding.of_some (hs : SameStanding s t) (hd : s.receivers[r].data = some d) :
    ∃ e, t.receivers[r].data = some e ∧ e.standing = d.standing := by
  have := hs r
  rw [hd] at this
  exact Option.map_eq_some_iff.mp this

theorem SameStanding.placeOf (hs : SameStanding s t) (r : RecNo) : placeOf t r = placeOf s r := by
  have hplace (x : State) : Machine.placeOf x r = (x.receivers[r].data.map ReceiverData.standing).bind (·.2.1) := by
    rw [placeOf_eq, Option.bind_map]
    rfl
  rw [hplace, hplace, hs r]

theorem SameStanding.docked (hs : SameStanding s t) (hd : Docked s r) : Docked t r := by
  obtain ⟨d, hd, hp, hstamp⟩ := hd
  obtain ⟨e, he, hst⟩ := hs.of_some hd
  obtain ⟨-, hplace, hdock, -⟩ := standing_eq_iff.mp hst
  exact ⟨e, he, hplace ▸ hp, hdock ▸ hstamp⟩

theorem dockedFirst_congr {d' e' : ReceiverData} (hd : d'.standing = d.standing) (he : e'.standing = e.standing) :
    DockedFirst d' e' ↔ DockedFirst d e := by
  obtain ⟨-, hp, hs, -⟩ := standing_eq_iff.mp hd
  obtain ⟨-, hp', hs', -⟩ := standing_eq_iff.mp he
  rw [DockedFirst, DockedFirst, hp, hs, hp', hs']

theorem SameStanding.poolOrder (hs : SameStanding s t) (ho : PoolOrder s x y) : PoolOrder t x y := by
  obtain ⟨d, hd, e, he, ho⟩ := ho
  obtain ⟨d', hd', hdst⟩ := hs.of_some hd
  obtain ⟨e', he', hest⟩ := hs.of_some he
  refine ⟨d', hd', e', he', ?_⟩
  obtain ⟨-, -, -, hb, -⟩ := standing_eq_iff.mp hdst
  obtain ⟨-, -, -, hb', -⟩ := standing_eq_iff.mp hest
  rwa [dockedFirst_congr hdst hest, hb, hb']

theorem noteReceiver_standing {f : ReceiverData → ReceiverData} (hf : ∀ d, (f d).standing = d.standing) (s : State)
    (r : RecNo) : SameStanding s (s.noteReceiver r f) := by
  intro x
  by_cases h : r = x
  · subst h
    rw [noteReceiver_self, Option.map_map]
    exact congrArg (Option.map · _) (funext hf)
  · rw [noteReceiver_ne _ h]

theorem changeReceiver_standing {f : ReceiverData → ReceiverData} (hf : ∀ d, (f d).standing = d.standing)
    (s : State) (r : RecNo) : SameStanding s (s.changeReceiver r f) := by
  intro x
  by_cases h : r = x
  · subst h
    rw [changeReceiver_self, Option.map_map]
    exact congrArg (Option.map · _) (funext hf)
  · rw [changeReceiver_ne _ h]

/-! ### The orders of R118 and R137 -/

/-- The later keys of both orders: dock stamp, then port and slot. -/
theorem dockedFirst_iff (hd : d.place ≠ none) (he : e.place ≠ none) (he' : e.dockStamp ≠ none) :
    DockedFirst d e ↔ if d.dockStamp ≠ e.dockStamp then stampBefore d.dockStamp e.dockStamp = true
      else placeNumber d.place < placeNumber e.place := by
  obtain ⟨b, hb⟩ := Option.ne_none_iff_exists'.mp he'
  obtain ⟨p, hp⟩ := Option.ne_none_iff_exists'.mp hd
  obtain ⟨q, hq⟩ := Option.ne_none_iff_exists'.mp he
  have hplace : placeNumber (some p) < placeNumber (some q) ↔ p.1 < q.1 ∨ p.1 = q.1 ∧ p.2 < q.2 := by
    have hk := p.2.isLt
    have hk' := q.2.isLt
    simp only [placeNumber, Fin.lt_def, Fin.ext_iff]
    omega
  have hirr : earlier b b = false := Bool.eq_false_iff.mpr fun h => (earlier_asymm h).2 rfl
  cases ha : d.dockStamp with
  | none => simp [DockedFirst, StampFirst, ha, hb, stampBefore]
  | some a =>
    simp only [DockedFirst, StampFirst, ha, hb, hp, hq, Option.some.injEq, exists_eq_left', stampBefore, hplace]
    by_cases hab : a = b
    · simp [hab, hirr]
    · simp [hab]

theorem poolBefore_iff (hx : s.receivers[x].data = some d) (hp : d.place ≠ none) (hy : Docked s y) :
    poolBefore s x y = true ↔ PoolOrder s x y := by
  obtain ⟨e, he, hep, hes⟩ := hy
  simp only [poolBefore, PoolOrder, hx, he, Option.some.injEq, exists_eq_left', dockedFirst_iff hp hep hes]
  by_cases hb : d.battery = e.battery
  · by_cases hst : d.dockStamp = e.dockStamp <;> simp [hb, hst]
  · simp [hb]

theorem chargeBefore_iff (hx : s.receivers[x].data = some d) (hp : d.place ≠ none) (hy : Docked s y) :
    chargeBefore s x y = true ↔ ChargeOrder s x y := by
  obtain ⟨e, he, hep, hes⟩ := hy
  simp only [chargeBefore, ChargeOrder, hx, he, Option.some.injEq, exists_eq_left', dockedFirst_iff hp hep hes,
    isCritical]
  by_cases hc : d.battery < s.limits.critical <;> by_cases hc' : e.battery < s.limits.critical <;>
    by_cases hst : d.dockStamp = e.dockStamp <;> simp [hc, hc', hst] <;> omega

/-- A member put before the first that it goes before. -/
theorem putAt_insertBefore {α : Type} {b : α → α → Bool} {R : α → α → Prop} {x : α} {l : List α}
    (h : ∀ y ∈ l, b x y = true ↔ R x y) : PutAt R x l (insertBefore b x l) := by
  induction l with
  | nil => exact ⟨0, le_rfl, rfl, fun _ hy => absurd hy List.not_mem_nil, fun _ hy => absurd hy (by simp)⟩
  | cons y ys ih =>
    obtain ⟨hy, hys⟩ := List.forall_mem_cons.mp h
    by_cases hb : b x y = true
    · refine ⟨0, Nat.zero_le _, if_pos hb, fun _ hz => absurd hz List.not_mem_nil, fun z hz => ?_⟩
      obtain rfl : y = z := by simpa using hz
      exact hy.mp hb
    · obtain ⟨n, hn, hl, hfront, hback⟩ := ih hys
      refine ⟨n + 1, Nat.succ_le_succ hn, ?_, List.forall_mem_cons.mpr ⟨mt hy.mpr hb, hfront⟩, hback⟩
      rw [insertBefore, if_neg hb, hl]
      rfl

theorem PutAt.congr {α : Type} {R R' : α → α → Prop} {x : α} {l l' : List α} (h : PutAt R x l l')
    (hR : ∀ y, R x y ↔ R' x y) : PutAt R' x l l' := by
  obtain ⟨n, hn, hl, hfront, hback⟩ := h
  exact ⟨n, hn, hl, fun y hy => mt (hR y).mpr (hfront y hy), fun y hy => (hR y).mp (hback y hy)⟩

/-- A docked receiver takes its place in the pool (R118). -/
theorem putAt_poolInsert (hd : s.receivers[r].data = some d) (hp : d.place ≠ none)
    (hpool : ∀ x ∈ s.pool, Docked s x) : PutAt (PoolOrder s) r s.pool (poolInsert r s).pool :=
  putAt_insertBefore fun x hx => poolBefore_iff hd hp (hpool x hx)

end Sys2Proof.Machine
end

section
/-! Grants (R137, R138), key orders sent (R142), and what service leaves alone. -/

namespace Sys2Proof.Machine

open Laws

variable {P : State → Prop} {s t u : State} {g h : PortNo} {k j : RackSlot} {r x y : RecNo} {d e : ReceiverData}

/-! ### Grants (R138) -/

/-- A receiver with a grant. -/
def ReceiverData.granted (d : ReceiverData) : ReceiverData := { d with charging := true }

/-- Grants went to the head of a rack's charge queue. -/
structure Granted (g : PortNo) (s t : State) : Prop where
  eq : t = { s with receivers := t.receivers, racks := t.racks, ports := t.ports, notices := t.notices
                    noticeOverflow := t.noticeOverflow, log := t.log }
  ports : PortsKept s t
  notices : NoticesGrow s t
  others : ∀ h, g ≠ h → t.racks[h] = s.racks[h]
  rack : ∃ n, t.racks[g] = { s.racks[g] with
    chargeQueue := s.racks[g].chargeQueue.drop n
    grants := s.racks[g].grants ++ s.racks[g].chargeQueue.take n }
  receivers : ∀ r, t.receivers[r] = s.receivers[r] ∨ r ∈ s.racks[g].chargeQueue ∧
    t.receivers[r] = { s.receivers[r] with data := s.receivers[r].data.map ReceiverData.granted }

theorem Granted.refl (g : PortNo) (s : State) : Granted g s s :=
  ⟨rfl, fun _ => ⟨rfl, rfl, rfl⟩, List.prefix_refl _, fun _ _ => rfl, ⟨0, by simp⟩, fun _ => .inl rfl⟩

theorem Granted.mem_of_mem (hg : Granted g s t) (hr : r ∈ t.racks[g].chargeQueue) : r ∈ s.racks[g].chargeQueue := by
  obtain ⟨n, hn⟩ := hg.rack
  rw [hn] at hr
  exact List.mem_of_mem_drop hr

theorem Granted.trans (hst : Granted g s t) (htu : Granted g t u) : Granted g s u where
  eq := by rw [htu.eq, hst.eq]
  ports := hst.ports.trans htu.ports
  notices := List.IsPrefix.trans hst.notices htu.notices
  others h hne := (htu.others h hne).trans (hst.others h hne)
  rack := by
    obtain ⟨n, hn⟩ := hst.rack
    obtain ⟨m, hm⟩ := htu.rack
    refine ⟨n + m, ?_⟩
    rw [hm, hn]
    simp only [List.drop_drop, List.take_add, List.append_assoc]
  receivers r := by
    rcases hst.receivers r with h1 | ⟨hm, h1⟩
    · rcases htu.receivers r with h2 | ⟨hm', h2⟩
      · exact .inl (h2.trans h1)
      · exact .inr ⟨hst.mem_of_mem hm', by rw [h2, h1]⟩
    · refine .inr ⟨hm, ?_⟩
      rcases htu.receivers r with h2 | ⟨hm', h2⟩
      · exact h2.trans h1
      · rw [h2, h1, Option.map_map]
        rfl

/-- The hub with a receiver moved from the head of a rack's charge queue to its grants. -/
def headGranted (g : PortNo) (r : RecNo) (rest : List RecNo) (s : State) : State :=
  (s.modRack g fun e => { e with chargeQueue := rest, grants := e.grants ++ [r] }).noteReceiver r ReceiverData.granted

theorem issueOne_of_cons {rest : List RecNo} (hq : s.racks[g].chargeQueue = r :: rest)
    (hon : s.racks[g].online = true) (hlim : s.racks[g].grants.length < s.racks[g].grantLimit) :
    issueOne g s = chargeFrame g r .grant (headGranted g r rest s) := by
  unfold issueOne
  simp only [hq]
  exact if_pos ⟨hon, hlim⟩

/-- Nothing is granted while the rack is offline, at its limit, or has no one waiting for a grant (R138). -/
theorem issueOne_of_nothing (hn : s.racks[g].online = false ∨ s.racks[g].grantLimit ≤ s.racks[g].grants.length ∨
    s.racks[g].chargeQueue = []) : issueOne g s = s := by
  unfold issueOne
  dsimp only
  split
  · rfl
  · next hq =>
    refine if_neg fun ⟨hon, hlim⟩ => ?_
    rcases hn with h | h | h
    · exact Bool.false_ne_true (h.symm.trans hon)
    · omega
    · exact List.cons_ne_nil _ _ (hq.symm.trans h)

theorem chargeFrame_eq (g : PortNo) (r : RecNo) (order : RackSlot → RackOrder) (s : State) :
    chargeFrame g r order s = s ∨ ∃ f, chargeFrame g r order s = handFrame g f s := by
  unfold chargeFrame
  split
  · exact .inl rfl
  · exact .inr ⟨_, rfl⟩

theorem granted_handFrame {f : TxFrame} (hg : Granted g s t) : Granted g s (handFrame h f t) where
  eq := by rw [handFrame_eq, hg.eq]
  ports := hg.ports.trans (portsKept_handFrame h f t)
  notices := List.IsPrefix.trans hg.notices (noticesGrow_handFrame h f t)
  others i hne := by rw [handFrame_racks, hg.others i hne]
  rack := by rw [handFrame_racks]; exact hg.rack
  receivers i := by rw [handFrame_receivers]; exact hg.receivers i

theorem granted_headGranted {rest : List RecNo} (hq : s.racks[g].chargeQueue = r :: rest) :
    Granted g s (headGranted g r rest s) where
  eq := rfl
  ports _ := ⟨rfl, rfl, rfl⟩
  notices := List.prefix_refl _
  others h hne := by rw [headGranted, State.noteReceiver_racks, modRack_racks_ne s hne]
  rack := ⟨1, by rw [headGranted, State.noteReceiver_racks, modRack_racks_self, hq]; rfl⟩
  receivers x := by
    by_cases hx : r = x
    · subst hx
      exact .inr ⟨hq ▸ List.mem_cons_self, by simp [headGranted]⟩
    · exact .inl (noteReceiver_ne _ hx _)

theorem granted_issueOne (g : PortNo) (s : State) : Granted g s (issueOne g s) := by
  by_cases hn : s.racks[g].online = false ∨ s.racks[g].grantLimit ≤ s.racks[g].grants.length ∨
      s.racks[g].chargeQueue = []
  · rw [issueOne_of_nothing hn]
    exact Granted.refl g s
  · obtain ⟨hon, hlim, hq⟩ : s.racks[g].online = true ∧ s.racks[g].grants.length < s.racks[g].grantLimit ∧
        s.racks[g].chargeQueue ≠ [] := by simpa using hn
    obtain ⟨r, rest, hq⟩ := List.exists_cons_of_ne_nil hq
    rw [issueOne_of_cons hq hon hlim]
    rcases chargeFrame_eq g r .grant (headGranted g r rest s) with hf | ⟨f, hf⟩
    · rw [hf]
      exact granted_headGranted hq
    · rw [hf]
      exact granted_handFrame (granted_headGranted hq)

theorem granted_issueGrants (g : PortNo) (s : State) : Granted g s (issueGrants g s) :=
  forEach_keeps (P := Granted g s) _ (fun _ t ht => ht.trans (granted_issueOne g t)) s (Granted.refl g s)

theorem Granted.receivers_of_not_mem (hg : Granted g s t) (hr : r ∉ s.racks[g].chargeQueue) :
    t.receivers[r] = s.receivers[r] := (hg.receivers r).resolve_right fun h => hr h.1

theorem Granted.not_mem_chargeQueue (hg : Granted g s t) (hr : r ∉ s.racks[g].chargeQueue) :
    r ∉ t.racks[g].chargeQueue := fun h => hr (hg.mem_of_mem h)

theorem Granted.not_mem_grants (hg : Granted g s t) (hr : r ∉ s.racks[g].chargeQueue)
    (hr' : r ∉ s.racks[g].grants) : r ∉ t.racks[g].grants := by
  obtain ⟨n, hn⟩ := hg.rack
  rw [hn]
  exact fun h => (List.mem_append.mp h).elim hr' fun h => hr (List.mem_of_mem_take h)

theorem Granted.standing (hg : Granted g s t) : SameStanding s t := fun r => by
  rcases hg.receivers r with h | ⟨-, h⟩
  · rw [h]
  · rw [h, Option.map_map]
    rfl

theorem Granted.rackKept (hg : Granted g s t) (h : PortNo) : RackKept s.racks[h] t.racks[h] := by
  by_cases hne : g = h
  · subst hne
    obtain ⟨n, hn⟩ := hg.rack
    rw [hn]
    exact ⟨rfl, fun _ => rfl⟩
  · rw [hg.others h hne]
    exact RackKept.refl _

/-! ### Key orders sent (R142) -/

/-- A rack once what it can send is sent: the head of the queue is in flight. -/
def Rack.sent (now : Clock) (e : Rack) : Rack :=
  if e.online = true ∧ e.inFlight = false ∧ e.keyQueue ≠ [] then
    { e with inFlight := true, attempts := 0, keyDeadline := some (now + 2000) } else e

theorem Rack.sent_sent (now : Clock) (e : Rack) : (e.sent now).sent now = e.sent now := by
  by_cases h : e.online = true ∧ e.inFlight = false ∧ e.keyQueue ≠ []
  · simp only [Rack.sent, if_pos h]
    exact if_neg fun h' => Bool.false_ne_true h'.2.1.symm
  · simp only [Rack.sent, if_neg h]

theorem Rack.sent_of_offline {now : Clock} {e : Rack} (h : e.online = false) : e.sent now = e :=
  if_neg fun hs => Bool.false_ne_true (h.symm.trans hs.1)

/-- What the sending changes of a rack: order in flight, attempts and deadline. -/
theorem Rack.sent_eq (now : Clock) (e : Rack) : e.sent now = { e with
    inFlight := (e.sent now).inFlight, attempts := (e.sent now).attempts
    keyDeadline := (e.sent now).keyDeadline } := by
  unfold Rack.sent
  split <;> rfl

theorem sendHead_of_nothing (hn : ¬ (s.racks[g].online = true ∧ s.racks[g].inFlight = false ∧
    s.racks[g].keyQueue ≠ [])) : sendHead g s = s := by
  unfold sendHead
  dsimp only
  split
  · rfl
  · next hq =>
    refine if_neg fun h => hn ?_
    obtain ⟨hon, hfl⟩ : s.racks[g].online = true ∧ s.racks[g].inFlight = false := by simpa using h
    exact ⟨hon, hfl, hq ▸ List.cons_ne_nil _ _⟩

theorem sendHead_racks (g : PortNo) (s : State) :
    (sendHead g s).racks[g] = s.racks[g].sent s.clock ∧ ∀ h, g ≠ h → (sendHead g s).racks[h] = s.racks[h] := by
  by_cases hn : s.racks[g].online = true ∧ s.racks[g].inFlight = false ∧ s.racks[g].keyQueue ≠ []
  · obtain ⟨hon, hfl, hq⟩ := hn
    obtain ⟨o, rest, hq'⟩ := List.exists_cons_of_ne_nil hq
    have hsend : sendHead g s = sendOrder g o 0 s := by
      unfold sendHead
      simp only [hq', hon, hfl]
      rfl
    rw [hsend, sendOrder, Rack.sent, if_pos ⟨hon, hfl, hq⟩]
    refine ⟨(modRack_racks_self _ g _).trans ?_, fun h hne => (modRack_racks_ne _ hne _).trans ?_⟩
    · rw [handFrame_racks]
      rfl
    · rw [handFrame_racks]
  · rw [sendHead_of_nothing hn, Rack.sent, if_neg hn]
    exact ⟨rfl, fun _ _ => rfl⟩

theorem onlySent_sendHead (g : PortNo) (s : State) : OnlySent s (sendHead g s) := by
  unfold sendHead
  dsimp only
  split
  · rfl
  · refine ite_keeps (P := OnlySent s) ?_ rfl
    rw [OnlySent, sendOrder, handFrame_eq]
    rfl

theorem OnlySent.clock (h : OnlySent s t) : t.clock = s.clock := by rw [h]

/-- Every rack has sent what it could (R142). -/
theorem sendKeys_racks (s : State) (g : PortNo) : (sendKeys s).racks[g] = s.racks[g].sent s.clock := by
  have hlist (gs : List PortNo) (s : State) : (forEach gs sendHead s).racks[g] =
      if g ∈ gs then s.racks[g].sent s.clock else s.racks[g] := by
    induction gs generalizing s with
    | nil => exact (if_neg List.not_mem_nil).symm
    | cons h gs ih =>
      obtain ⟨hself, hne⟩ := sendHead_racks h s
      rw [forEach_cons, ih, (onlySent_sendHead h s).clock]
      by_cases hg : h = g
      · subst hg
        rw [hself, Rack.sent_sent, ite_self, if_pos List.mem_cons_self]
      · rw [hne g hg]
        simp only [List.mem_cons, Ne.symm hg, false_or]
  exact (hlist _ s).trans (if_pos (mem_fins g))

/-- A frame handed to one port leaves every other alone. -/
theorem handFrame_ports_ne (hne : g ≠ h) (f : TxFrame) (s : State) : (handFrame g f s).ports[h] = s.ports[h] := by
  have hv : g.val ≠ h.val := fun e => hne (Fin.ext e)
  refine ite_keeps (P := fun t => t.ports[h] = s.ports[h]) ?_ (by simp)
  unfold startLine
  split <;> simp [Vector.getElem_set_ne, hv]

theorem sendHead_ports_ne (hne : g ≠ h) (s : State) : (sendHead g s).ports[h] = s.ports[h] := by
  unfold sendHead
  dsimp only
  split
  · rfl
  · refine ite_keeps (P := fun t => t.ports[h] = s.ports[h]) ?_ rfl
    exact handFrame_ports_ne hne _ s

/-- The port of an offline rack is handed nothing. -/
theorem sendKeys_ports_of_offline (hoff : s.racks[g].online = false) : (sendKeys s).ports[g] = s.ports[g] := by
  refine (forEach_keeps (P := fun t => t.ports[g] = s.ports[g] ∧ t.racks[g] = s.racks[g]) _ (fun h t ht => ?_)
    s ⟨rfl, rfl⟩).1
  obtain ⟨hport, hrack⟩ := ht
  by_cases hg : h = g
  · subst hg
    have hnone : ¬ (t.racks[h].online = true ∧ t.racks[h].inFlight = false ∧ t.racks[h].keyQueue ≠ []) := by
      rw [hrack, hoff]
      exact fun hs => Bool.false_ne_true hs.1
    rw [sendHead_of_nothing hnone]
    exact ⟨hport, hrack⟩
  · exact ⟨(sendHead_ports_ne hg t).trans hport, ((sendHead_racks h t).2 g hg).trans hrack⟩

/-! ### What service leaves alone -/

/-- An order but for S. -/
def OutfitOrder.aside (o : OutfitOrder) : BitVec 16 × TourNo × LangSlot × Nat × Nat × Nat :=
  (o.number, o.tour, o.lang, o.want, o.keyed, o.failed)

/-- What selection, charging and key orders leave alone: programs and all outside the fleet, what docking and reports
set of the receivers, the occupants of the racks, and the orders but for S. -/
structure Serviced (s t : State) : Prop where
  eq : t = { s with receivers := t.receivers, pool := t.pool, outfits := t.outfits, racks := t.racks
                    ports := t.ports, notices := t.notices, noticeOverflow := t.noticeOverflow, log := t.log }
  ports : PortsKept s t
  notices : NoticesGrow s t
  standing : SameStanding s t
  racks : ∀ g : PortNo, RackKept s.racks[g] t.racks[g]
  orders : t.outfits.map OutfitOrder.aside = s.outfits.map OutfitOrder.aside

theorem Serviced.refl (s : State) : Serviced s s :=
  ⟨rfl, fun _ => ⟨rfl, rfl, rfl⟩, List.prefix_refl _, fun _ => rfl, fun _ => RackKept.refl _, rfl⟩

theorem Serviced.trans (hst : Serviced s t) (htu : Serviced t u) : Serviced s u where
  eq := by rw [htu.eq, hst.eq]
  ports := hst.ports.trans htu.ports
  notices := List.IsPrefix.trans hst.notices htu.notices
  standing r := (htu.standing r).trans (hst.standing r)
  racks g := (hst.racks g).trans (htu.racks g)
  orders := htu.orders.trans hst.orders

theorem fleetFrame_iff : FleetFrame s t ↔ Grown s t ∧ ClosureFrame s t :=
  ⟨fun ⟨a, b, c, d⟩ => ⟨⟨a, b, c⟩, d⟩, fun ⟨⟨a, b, c⟩, d⟩ => ⟨a, b, c, d⟩⟩

theorem FleetFrame.trans (h : FleetFrame s t) (h' : FleetFrame t u) : FleetFrame s u := by
  obtain ⟨hg, hc⟩ := fleetFrame_iff.mp h
  obtain ⟨hg', hc'⟩ := fleetFrame_iff.mp h'
  exact fleetFrame_iff.mpr ⟨hg.trans hg', hc.trans hc'⟩

/-- A change of receivers, pool, orders and racks alone. -/
theorem fleetFrame_of_eq (h : t = { s with
    receivers := t.receivers, pool := t.pool, outfits := t.outfits, racks := t.racks }) : FleetFrame s t := by
  refine fleetFrame_iff.mpr ⟨?_, by rw [ClosureFrame, h]⟩
  rw [h]
  exact Grown.refl s

theorem Serviced.fleetFrame (h : Serviced s t) : FleetFrame s t := by
  refine fleetFrame_iff.mpr ⟨⟨?_, h.ports, h.notices⟩, by rw [ClosureFrame, h.eq]⟩
  rw [h.eq]
  exact SourcesTrimmed.refl s

theorem Serviced.programs (h : Serviced s t) : t.programs = s.programs := by rw [h.eq]

theorem Serviced.limits (h : Serviced s t) : t.limits = s.limits := by rw [h.eq]

theorem Serviced.clock (h : Serviced s t) : t.clock = s.clock := by rw [h.eq]

theorem Serviced.orders_nil (h : Serviced s t) (ho : s.outfits = []) : t.outfits = [] := by
  have := h.orders
  rwa [ho, List.map_nil, List.map_eq_nil_iff] at this

theorem serviced_noteReceiver (s : State) (r : RecNo) {f : ReceiverData → ReceiverData}
    (hf : ∀ d, (f d).standing = d.standing) : Serviced s (s.noteReceiver r f) :=
  { Serviced.refl s with eq := rfl, standing := noteReceiver_standing hf s r }

theorem serviced_changeReceiver (s : State) (r : RecNo) {f : ReceiverData → ReceiverData}
    (hf : ∀ d, (f d).standing = d.standing) : Serviced s (s.changeReceiver r f) :=
  { Serviced.refl s with eq := rfl, standing := changeReceiver_standing hf s r }

theorem rackKept_modRack (s : State) (g h : PortNo) {f : Rack → Rack} (hf : RackKept s.racks[g] (f s.racks[g])) :
    RackKept s.racks[h] (s.modRack g f).racks[h] := by
  by_cases hne : g = h
  · subst hne
    rwa [modRack_racks_self]
  · rw [modRack_racks_ne _ hne]
    exact RackKept.refl _

theorem serviced_modRack (s : State) (g : PortNo) {f : Rack → Rack} (hf : RackKept s.racks[g] (f s.racks[g])) :
    Serviced s (s.modRack g f) :=
  { Serviced.refl s with eq := rfl, racks := fun h => rackKept_modRack s g h hf }

theorem serviced_withPool (s : State) (l : List RecNo) : Serviced s (s.withPool l) :=
  { Serviced.refl s with eq := rfl }

theorem serviced_modOrder (s : State) (n : BitVec 16) {f : OutfitOrder → OutfitOrder}
    (hf : ∀ o, (f o).aside = o.aside) : Serviced s (modOrder n f s) :=
  { Serviced.refl s with
    eq := rfl
    orders := by
      rw [modOrder, List.map_map]
      refine List.map_congr_left fun o _ => ?_
      show OutfitOrder.aside (if _ then _ else _) = _
      split
      · exact hf o
      · rfl }

theorem serviced_modOrderOf (s : State) (n : Option (BitVec 16)) {f : OutfitOrder → OutfitOrder}
    (hf : ∀ o, (f o).aside = o.aside) : Serviced s (modOrderOf n f s) := by
  cases n with
  | none => exact Serviced.refl s
  | some n => exact serviced_modOrder s n hf

theorem Granted.serviced (hg : Granted g s t) : Serviced s t where
  eq := by rw [hg.eq]
  ports := hg.ports
  notices := hg.notices
  standing := hg.standing
  racks := hg.rackKept
  orders := by rw [hg.eq]

theorem serviced_issueGrants (g : PortNo) (s : State) : Serviced s (issueGrants g s) :=
  (granted_issueGrants g s).serviced

theorem serviced_takeFor (x : OutfitOrder × RecNo) (s : State) : Serviced s (takeFor x s) := by
  have hchange := serviced_changeReceiver s x.2 (f := ReceiverData.selectedFor x.1) fun _ => rfl
  have hkey (t : State) : Serviced t (placeKeyFor x.2 x.1.program t) := by
    unfold placeKeyFor
    split
    · exact Serviced.refl t
    · exact serviced_modRack t _ (rackKept_placeKey _ _ _)
  exact (hchange.trans (hkey _)).trans (serviced_modOrder _ _ fun _ => rfl)

theorem serviced_runSelection (s : State) : Serviced s (runSelection s) := by
  rw [runSelection_eq]
  exact (forEach_keeps (P := Serviced s) _ (fun x t ht => ht.trans (serviced_takeFor x t)) s
    (Serviced.refl s)).trans (serviced_withPool _ _)

theorem serviced_poolInsert (r : RecNo) (s : State) : Serviced s (poolInsert r s) := serviced_withPool s _

theorem serviced_poolLeave (r : RecNo) (s : State) : Serviced s (poolLeave r s) := serviced_withPool s _

theorem serviced_enterPool (r : RecNo) (s : State) : Serviced s (enterPool r s) := by
  unfold enterPool
  split
  · exact Serviced.refl s
  · exact ite_keeps (P := Serviced s) ((serviced_poolInsert r s).trans (serviced_runSelection _)) (Serviced.refl s)

theorem serviced_poolMove (r : RecNo) (s : State) : Serviced s (poolMove r s) :=
  ite_keeps (P := Serviced s) ((serviced_poolLeave r s).trans (serviced_poolInsert r _)) (Serviced.refl s)

theorem serviced_chargeLeave (g : PortNo) (r : RecNo) (s : State) : Serviced s (chargeLeave g r s) :=
  serviced_modRack s g ⟨rfl, fun _ => rfl⟩

theorem serviced_chargeSettle (g : PortNo) (r : RecNo) (s : State) : Serviced s (chargeSettle g r s) := by
  have hleave := serviced_chargeLeave g r s
  unfold chargeSettle
  dsimp only
  split
  · exact hleave
  · exact ite_keeps (P := Serviced s) (hleave.trans (serviced_modRack _ g ⟨rfl, fun _ => rfl⟩)) hleave

theorem serviced_freeGrant (g : PortNo) (r : RecNo) (s : State) : Serviced s (freeGrant g r s) :=
  (serviced_modRack s g (f := fun e => { e with grants := e.grants.filter fun x => !(x == r) })
    ⟨rfl, fun _ => rfl⟩).trans (serviced_noteReceiver _ r fun _ => rfl)

theorem serviced_sendKeys (s : State) : Serviced s (sendKeys s) := by
  have hsent := onlySent_sendKeys s
  obtain ⟨-, hports, hnotices⟩ := grown_sendKeys s
  refine ⟨by rw [hsent], hports, hnotices, fun r => by rw [hsent], fun g => ?_, by rw [hsent]⟩
  rw [sendKeys_racks, Rack.sent_eq]
  exact ⟨rfl, fun _ => rfl⟩

/-! ### Rack reports (Table 11-5) -/

/-- The payload of a rack report (Table 11-5). -/
def reportPayload (kind : Nat) (k : RackSlot) (id : BitVec 24) (level : Nat) : List Byte :=
  put8 kind ++ put8 k.val ++ put24 id.toNat ++ put8 level

theorem receive_reportFrame (hp : PortIs s g .rack) (kind : Nat) (k : RackSlot) (id : BitVec 24) (level : Nat) :
    receive g .report (reportFrame kind k id level) s = some (reportPayload kind k id level) := by
  obtain ⟨-, hup, hrole⟩ := hp
  have hlen : (reportPayload kind k id level).length = 6 := rfl
  rw [receive, show reportFrame kind k id level = envelope 0x04 (reportPayload kind k id level) from rfl,
    openEnvelope_envelope _ _ (by omega)]
  exact if_pos ⟨hup, rfl, rfl, by rw [hrole]; rfl⟩

theorem byteAt_reportPayload_kind {kind : Nat} (h : kind < 256) (k : RackSlot) (id : BitVec 24) (level : Nat) :
    byteAt (reportPayload kind k id level) 0 = kind :=
  byteAt_put8 kind (put8 k.val ++ put24 id.toNat ++ put8 level) h

theorem withSlot_reportPayload (f : RackSlot → State → State) (kind : Nat) (k : RackSlot) (id : BitVec 24)
    (level : Nat) (s : State) : withSlot f (reportPayload kind k id level) s = f k s := by
  have hk := k.isLt
  have hslot : byteAt (reportPayload kind k id level) 1 = k.val :=
    byteAt_put8 k.val (put24 id.toNat ++ put8 level) (by omega)
  rw [withSlot, hslot, toFin_val]

theorem byteAt_reportPayload_level {level : Nat} (h : level < 256) (kind : Nat) (k : RackSlot) (id : BitVec 24) :
    byteAt (reportPayload kind k id level) 5 = level := byteAt_put8 level [] h

theorem tripleAt_reportPayload (kind : Nat) (k : RackSlot) (id : BitVec 24) (level : Nat) :
    BitVec.ofNat 24 (tripleAt (reportPayload kind k id level) 2) = id := by
  have htriple : tripleAt (reportPayload kind k id level) 2 = id.toNat := by
    have hid := id.isLt
    simp only [tripleAt, wordAt, reportPayload, put8, put24, put16, List.cons_append, List.nil_append,
      byteAt_cons_zero, byteAt_cons_succ, BitVec.toNat_ofNat]
    omega
  rw [htriple, BitVec.ofNat_toNat, BitVec.setWidth_eq]

/-- A report of a RACK port that is UP takes its effect, and what key orders can be sent are (R142). -/
theorem rackReport_of_port (hp : PortIs s g .rack) {kind : Nat} (hk : kind < 256) (f : List Byte → State → State)
    (k : RackSlot) (id : BitVec 24) (level : Nat) :
    rackReport g (reportFrame kind k id level) kind f s = .next (sendKeys (f (reportPayload kind k id level) s)) := by
  rw [rackReport, running_of_running s hp.1, receive_reportFrame hp]
  exact congrArg _ (if_pos (byteAt_reportPayload_kind hk k id level))

section
variable (hp : PortIs s g .rack) (k : RackSlot) (id : BitVec 24) (level : Nat)
include hp

theorem exec_dock (hl : level < 256) :
    exec (.dock g (reportFrame 1 k id level)) s = .next (sendKeys (dockReport g k id level s)) := by
  refine (rackReport_of_port hp (by decide) _ k id level).trans ?_
  rw [withSlot_reportPayload, tripleAt_reportPayload, byteAt_reportPayload_level hl]

theorem exec_undock : exec (.undock g (reportFrame 2 k id level)) s = .next (sendKeys (undockSlot g k s)) := by
  refine (rackReport_of_port hp (by decide) _ k id level).trans ?_
  rw [withSlot_reportPayload]

theorem exec_battery (hl : level < 256) :
    exec (.battery g (reportFrame 3 k id level)) s = .next (sendKeys (batteryReport g k level s)) := by
  refine (rackReport_of_port hp (by decide) _ k id level).trans ?_
  rw [withSlot_reportPayload, byteAt_reportPayload_level hl]

theorem exec_chargeDone :
    exec (.chargeDone g (reportFrame 4 k id level)) s = .next (sendKeys (chargeReport g k s)) := by
  refine (rackReport_of_port hp (by decide) _ k id level).trans ?_
  rw [withSlot_reportPayload]

theorem exec_keyDone :
    exec (.keyDone g (reportFrame 5 k id level)) s = .next (sendKeys (keyReport g k none s)) := by
  refine (rackReport_of_port hp (by decide) _ k id level).trans ?_
  rw [withSlot_reportPayload]

theorem exec_keyFail :
    exec (.keyFail g (reportFrame 6 k id level)) s = .next (sendKeys (keyReport g k (some 1) s)) := by
  refine (rackReport_of_port hp (by decide) _ k id level).trans ?_
  rw [withSlot_reportPayload]

theorem exec_slotFault :
    exec (.slotFault g (reportFrame 7 k id level)) s = .next (sendKeys (slotFaultReport g k s)) := by
  refine (rackReport_of_port hp (by decide) _ k id level).trans ?_
  rw [withSlot_reportPayload]

theorem exec_inventoryEnd :
    exec (.inventoryEnd g (reportFrame 8 k id level)) s = .next (sendKeys (inventoryDone g s)) :=
  rackReport_of_port hp (by decide) _ k id level

end

end Sys2Proof.Machine
end

section
/-! What selection brings about (R121), and the loan deadline (R126). -/

namespace Sys2Proof.Machine

open Laws

variable {s t u : State} {g h : PortNo} {k j : RackSlot} {r y : RecNo} {o : OutfitOrder}

/-! ### Those taken -/

/-- Each of those taken, with its order, when none is taken twice. -/
theorem forEach_takeFor_receivers {xs : List (OutfitOrder × RecNo)} (hn : (xs.map Prod.snd).Nodup)
    {x : OutfitOrder × RecNo} (hx : x ∈ xs) (s : State) : (forEach xs takeFor s).receivers[x.2] =
      ⟨s.receivers[x.2].data.map (ReceiverData.selectedFor x.1), s.receivers[x.2].generation + 1⟩ := by
  induction xs generalizing s with
  | nil => exact absurd hx List.not_mem_nil
  | cons z zs ih =>
    obtain ⟨hz, hzs⟩ := List.nodup_cons.mp hn
    rw [forEach_cons]
    rcases List.mem_cons.mp hx with rfl | hx
    · rw [forEach_takeFor_receivers_ne hz, takeFor_eq]
      simp
    · rw [ih hzs hx, takeFor_receivers_ne fun e => hz (e ▸ List.mem_map_of_mem hx)]

/-- The KEY of each of those taken stands in the queue of its rack. -/
theorem mem_keyQueue_forEach_takeFor {xs : List (OutfitOrder × RecNo)} {x : OutfitOrder × RecNo} (hx : x ∈ xs)
    (hp : placeOf s x.2 = some (g, k)) : .key k x.1.program ∈ (forEach xs takeFor s).racks[g].keyQueue := by
  induction xs generalizing s with
  | nil => exact absurd hx List.not_mem_nil
  | cons z zs ih =>
    rw [forEach_cons]
    rcases List.mem_cons.mp hx with rfl | hx
    · have hown : .key k x.1.program ∈ (takeFor x s).racks[g].keyQueue := by
        rw [takeFor_eq, hp]
        exact (modRack_racks_self s g _).symm ▸ mem_keyQueue_placeKey k x.1.program s.racks[g]
      exact forEach_keeps (P := fun t => .key k x.1.program ∈ t.racks[g].keyQueue) zs
        (fun y t ht => mem_keyQueue_takeFor y ht) _ hown
    · exact ih hx ((placeOf_takeFor z s x.2).trans hp)

section
variable {before after : List OutfitOrder}

theorem assigned_split (before after : List OutfitOrder) (o : OutfitOrder) (pool : List RecNo) :
    assigned (before ++ o :: after) pool = assigned before pool ++
      (((pool.drop (needOf before)).take o.shortfall).map (o, ·) ++
        assigned after ((pool.drop (needOf before)).drop o.shortfall)) := assigned_append _ _ _

/-- No receiver is taken for a number that none of the orders has. -/
theorem countP_assigned_eq_zero {os : List OutfitOrder} {n : BitVec 16} (h : ∀ o ∈ os, o.number ≠ n)
    (pool : List RecNo) : (assigned os pool).countP (fun x => n = x.1.number) = 0 :=
  List.countP_eq_zero.mpr fun x hx => by simpa using (h x.1 (fst_mem_of_mem_assigned hx)).symm

/-- How many are taken for an order. -/
theorem countP_assigned (hn : ((before ++ o :: after).map (·.number)).Nodup) (pool : List RecNo) :
    (assigned (before ++ o :: after) pool).countP (fun x => o.number = x.1.number) =
      min o.shortfall (pool.length - needOf before) := by
  rw [List.map_append, List.map_cons, List.nodup_append, List.nodup_cons] at hn
  obtain ⟨-, ⟨hafter, -⟩, hbefore⟩ := hn
  have hmiddle : ((((pool.drop (needOf before)).take o.shortfall).map (o, ·)).countP
      fun x => o.number = x.1.number) = min o.shortfall (pool.length - needOf before) := by
    rw [List.countP_map, List.countP_eq_length.mpr (by simp), List.length_take, List.length_drop]
  rw [assigned_split, List.countP_append, List.countP_append, hmiddle,
    countP_assigned_eq_zero (os := before) fun o' ho' => hbefore _ (List.mem_map_of_mem ho') _ List.mem_cons_self,
    countP_assigned_eq_zero (os := after) fun o' ho' e => hafter (List.mem_map.mpr ⟨o', ho', e⟩)]
  omega

end

/-- Settles O43: selection takes the receivers that `assigned` pairs with the orders, one after the other. -/
theorem selectionServesOrdersInTurn : Obligations.SelectionServesOrdersInTurn := by
  unfold Obligations.SelectionServesOrdersInTurn
  intro s before o after hs hnum hpool hdata
  refine ⟨runSelection_pool s, ?_, fun r hr d hd => ?_, fun r hr => runSelection_receivers_of_not_taken hr,
    runSelection_frame s⟩
  · rw [runSelection_outfits, List.getElem?_map, hs, List.getElem?_append_right le_rfl, Nat.sub_self,
      List.getElem?_cons_zero, Option.map_some, countP_assigned (hs ▸ hnum)]
    rfl
  · have htaken : (o, r) ∈ assigned s.outfits s.pool := by
      rw [hs, assigned_split]
      exact List.mem_append_right _ (List.mem_append_left _ (List.mem_map_of_mem hr))
    have hnodup : ((assigned s.outfits s.pool).map Prod.snd).Nodup := by
      rw [map_snd_assigned]
      exact hpool.sublist (List.take_sublist _ _)
    rw [runSelection_eq]
    refine ⟨(forEach_takeFor_receivers hnodup htaken s).trans (by rw [hd]; rfl), fun g k hp => ?_⟩
    exact mem_keyQueue_forEach_takeFor htaken (by rw [placeOf_eq, hd]; exact hp)

/-! ### The loan deadline (R126) -/

/-- Settles O44. -/
theorem loanDeadlineMakesOverdue : Obligations.LoanDeadlineMakesOverdue := by
  unfold Obligations.LoanDeadlineMakesOverdue
  intro s r d p c hrun hd hst hdue hp hc
  refine (running_of_running s hrun).trans (congrArg _ ?_)
  simp only [loanExpiry, hd, hst, hdue, hp, hc, and_self, if_true, Option.map_some, State.changeReceiver,
    State.modReceiver]
  rfl

end Sys2Proof.Machine
end

section
/-! The counts of programs as receivers come and go (R116), and the outcomes of key orders (R122, R143). -/

namespace Sys2Proof.Machine

open Laws

variable {s t u : State} {g h : PortNo} {k j : RackSlot} {r y : RecNo} {d : ReceiverData} {p q : ProgNo}
  {n : BitVec 16} {o : OutfitOrder}

/-! ### Counts (R116) -/

theorem sameSetup_changeCounts (p : ProgNo) (f : Program → Program) (s : State) :
    SameSetup (s.modProgram p f) (changeCounts p f s) := by
  have hderive (x : State) : SameSetup x (rederive [p] x) := sameSetup_forEach_derive _ _
  have hrank (x : State) : SameSetup x (rerank [p] x) :=
    ⟨fun n => by rw [(rerank_eq [p] x).1], fun q => by rw [(rerank_eq [p] x).1]⟩
  unfold changeCounts
  generalize s.modProgram p f = x
  exact ite_keeps (P := SameSetup x) ((hderive x).trans (hrank _)) (hderive x)

/-- What becomes of the two counts of the program. -/
theorem changeCounts_counts (p : ProgNo) (f : Program → Program) (s : State) :
    (changeCounts p f s).programs[p].keyed = (f s.programs[p]).keyed ∧
      (changeCounts p f s).programs[p].issued = (f s.programs[p]).issued := by
  obtain ⟨-, -, -, -, hk, hi⟩ := setup_eq_iff.mp ((sameSetup_changeCounts p f s).2 p)
  rw [hk, hi, modProgram_programs_self]
  exact ⟨rfl, rfl⟩

theorem fleetFrame_changeCounts (p : ProgNo) (f : Program → Program) (s : State) :
    FleetFrame s (changeCounts p f s) :=
  fleetFrame_iff.mpr ⟨(followKeeps_grown s).changeCounts p f s (Grown.refl s),
    (onlyFollowers_changeCounts p f s).closureFrame⟩

theorem OnlyFollowers.fleet (h : OnlyFollowers s t) : t.receivers = s.receivers ∧ t.pool = s.pool ∧
    t.outfits = s.outfits ∧ t.racks = s.racks := by rw [h]; exact ⟨rfl, rfl, rfl, rfl⟩

theorem fleetFrame_queueNotice (kind : NoticeKind) (a b : Option (BitVec 16)) (c : BitVec 16) (s : State) :
    FleetFrame s (queueNotice kind a b c s) :=
  fleetFrame_iff.mpr ⟨(followKeeps_grown s).notice kind a b c s (Grown.refl s), by rw [ClosureFrame, queueNotice_eq]⟩

theorem fleetFrame_sendKeys (s : State) : FleetFrame s (sendKeys s) := (serviced_sendKeys s).fleetFrame

theorem OnlySent.pool (h : OnlySent s t) : t.pool = s.pool := by rw [h]

theorem FleetFrame.limits (h : FleetFrame s t) : t.limits = s.limits := by rw [h.2.2.2]

theorem FleetFrame.clock (h : FleetFrame s t) : t.clock = s.clock := by rw [h.2.2.2]

theorem FleetFrame.notices (h : FleetFrame s t) : NoticesGrow s t := h.2.2.1

/-! ### Orders changed by number -/

theorem modOrderOf_eq (n : Option (BitVec 16)) (f : OutfitOrder → OutfitOrder) (s : State) :
    modOrderOf n f s = { s with outfits := s.outfits.map fun o => if n = some o.number then f o else o } := by
  cases n with
  | none => simp [modOrderOf]
  | some n => simp only [modOrderOf, modOrder, Option.some.injEq, eq_comm]

/-- The order of a number after the orders of that number changed. -/
theorem orderOf_map {f : OutfitOrder → OutfitOrder} (hf : ∀ o, (f o).number = o.number)
    (ht : t.outfits = s.outfits.map fun o => if some n = some o.number then f o else o) (ho : orderOf s n = some o) :
    orderOf t n = some (f o) := by
  have hnum : o.number = n := by simpa using List.find?_some ho
  have hsame : ((fun x : OutfitOrder => x.number == n) ∘ fun o => if some n = some o.number then f o else o) =
      fun x => x.number == n := by
    funext x
    show (OutfitOrder.number (if _ then _ else _) == n) = _
    split
    · rw [hf]
    · rfl
  rw [orderOf, ht, List.find?_map, hsame, show s.outfits.find? (fun x => x.number == n) = some o from ho,
    Option.map_some, hnum, if_pos rfl]

/-! ### The order in flight (R143) -/

theorem flying_of_flying {o : KeyOrder} (hf : Flying s g o) : s.racks[g].flying = some o := by
  obtain ⟨hfl, hq⟩ := hf
  rw [Rack.flying, if_pos hfl, hq]

theorem flying_iff {o : KeyOrder} : Flying s g o ↔ s.racks[g].flying = some o := by
  refine ⟨flying_of_flying, fun hf => ?_⟩
  unfold Rack.flying at hf
  split at hf
  · next hfl => exact ⟨hfl, hf⟩
  · cases hf

/-- The hub once the order in flight has left the head of a rack's queue. -/
def orderEnded (g : PortNo) (s : State) : State := s.modRack g Rack.finish

theorem keyReport_of_abandoned (hk : k ∈ s.racks[g].abandoned) (failure : Option Nat) :
    keyReport g k failure s = s.modRack g fun e => { e with abandoned := e.abandoned.erase k } :=
  if_pos (List.contains_iff_mem.mpr hk)

theorem keyReport_of_not_abandoned (hk : k ∉ s.racks[g].abandoned) (failure : Option Nat) :
    keyReport g k failure s = orderOutcome g k failure s := if_neg (mt List.contains_iff_mem.mp hk)

theorem orderOutcome_of_flying {o : KeyOrder} (hf : Flying s g o) (failure : Option Nat) :
    orderOutcome g o.slot failure s =
      failure.elim (orderSucceeds g o (orderEnded g s)) fun c => orderFails g o c (orderEnded g s) := by
  rw [orderOutcome, flying_of_flying hf]
  refine (if_pos rfl).trans ?_
  cases failure <;> rfl

/-- An outcome for a slot with no order in flight is ignored (R143). -/
theorem orderOutcome_of_other (h : ∀ o, Flying s g o → o.slot ≠ k) (failure : Option Nat) :
    orderOutcome g k failure s = s := by
  unfold orderOutcome
  split
  · rfl
  · next o ho => exact if_neg (h o (flying_iff.mpr ho))

theorem modRack_modRack (s : State) (g : PortNo) (f f' : Rack → Rack) :
    (s.modRack g f).modRack g f' = s.modRack g fun e => f' (f e) := by
  simp only [State.modRack, Fin.getElem_fin, Vector.getElem_set_self, Vector.set_set]

/-! ### A KEY that succeeded (R122) -/

/-- A receiver keyed: KEYED, and no longer of an outfit order. -/
def ReceiverData.keyedNow (d : ReceiverData) : ReceiverData := { d with state := .keyed, outfit := none }

/-- A KEYING receiver KEYED, with the counts of its order and its program (R122 steps 1 to 3). -/
def receiverKeyed (r : RecNo) (d : ReceiverData) (p : ProgNo) (s : State) : State :=
  countKeyed p (modOrderOf d.outfit OutfitOrder.keyedOne (s.changeReceiver r ReceiverData.keyedNow))

theorem keySuccess_eq (hp : d.keyedProgram = some p) (r : RecNo) (s : State) : keySuccess r d s =
    d.outfit.elim (receiverKeyed r d p s) fun n => completeOrder n (receiverKeyed r d p s) := by
  unfold keySuccess receiverKeyed
  rw [hp]
  cases d.outfit <;> rfl

theorem receiverKeyed_fleet (r : RecNo) (d : ReceiverData) (p : ProgNo) (s : State) :
    (receiverKeyed r d p s).receivers = (s.changeReceiver r ReceiverData.keyedNow).receivers ∧
      (receiverKeyed r d p s).pool = s.pool ∧
      (receiverKeyed r d p s).outfits =
        s.outfits.map (fun o => if d.outfit = some o.number then o.keyedOne else o) ∧
      (receiverKeyed r d p s).racks = s.racks := by
  obtain ⟨hr, hp, ho, hk⟩ := (onlyFollowers_changeCounts p (fun x => { x with keyed := x.keyed + 1 })
    (modOrderOf d.outfit OutfitOrder.keyedOne (s.changeReceiver r ReceiverData.keyedNow))).fleet
  rw [receiverKeyed, countKeyed, hr, hp, ho, hk, modOrderOf_eq]
  exact ⟨rfl, rfl, rfl, rfl⟩

theorem fleetFrame_receiverKeyed (r : RecNo) (d : ReceiverData) (p : ProgNo) (s : State) :
    FleetFrame s (receiverKeyed r d p s) := by
  refine FleetFrame.trans ?_ (fleetFrame_changeCounts p _ _)
  rw [modOrderOf_eq]
  exact fleetFrame_of_eq rfl

theorem receiverKeyed_counts (r : RecNo) (d : ReceiverData) (p : ProgNo) (s : State) :
    (receiverKeyed r d p s).programs[p].keyed = s.programs[p].keyed + 1 ∧
      (receiverKeyed r d p s).programs[p].issued = s.programs[p].issued := by
  obtain ⟨hk, hi⟩ := changeCounts_counts p (fun x => { x with keyed := x.keyed + 1 })
    (modOrderOf d.outfit OutfitOrder.keyedOne (s.changeReceiver r ReceiverData.keyedNow))
  rw [receiverKeyed, countKeyed, hk, hi, modOrderOf_eq]
  exact ⟨rfl, rfl⟩

/-- An order with its last receiver keyed is removed, with OUTFIT_DONE (R122 step 4). -/
theorem completeOrder_of_done (ho : orderOf s n = some o) (hw : o.want ≤ o.keyed) : completeOrder n s =
    queueNotice .outfitDone (some n) (subjectOf o.program.val) (BitVec.ofNat 16 o.failed)
      { s with outfits := s.outfits.filter fun x => !(x.number == n) } := by
  rw [completeOrder, ho]
  exact if_pos hw

theorem completeOrder_of_open (ho : orderOf s n = some o) (hw : ¬ o.want ≤ o.keyed) : completeOrder n s = s := by
  rw [completeOrder, ho]
  exact if_neg hw

/-- The completion of an order changes orders and notices at most. -/
theorem completeOrder_frame (n : BitVec 16) (s : State) : FleetFrame s (completeOrder n s) ∧
    (completeOrder n s).receivers = s.receivers ∧ (completeOrder n s).pool = s.pool ∧
    (completeOrder n s).racks = s.racks ∧ (completeOrder n s).programs = s.programs := by
  have hself : FleetFrame s s ∧ s.receivers = s.receivers ∧ s.pool = s.pool ∧ s.racks = s.racks ∧
      s.programs = s.programs := ⟨(Serviced.refl s).fleetFrame, rfl, rfl, rfl, rfl⟩
  unfold completeOrder
  split
  · exact hself
  · next o _ =>
    split
    · refine ⟨(fleetFrame_of_eq rfl).trans (fleetFrame_queueNotice _ _ _ _ _), ?_⟩
      simp only [queueNotice_receivers, queueNotice_pool, queueNotice_racks, queueNotice_programs, and_self]
    · exact hself

/-- The orders without those of a number do not depend on what became of these. -/
theorem filter_map_ne {f : OutfitOrder → OutfitOrder} (hf : ∀ o, (f o).number = o.number) (n : BitVec 16)
    (l : List OutfitOrder) : (l.map fun o => if some n = some o.number then f o else o).filter
      (fun x => !(x.number == n)) = l.filter fun x => x.number ≠ n := by
  induction l with
  | nil => rfl
  | cons o os ih =>
    rw [List.map_cons, List.filter_cons, List.filter_cons, ih]
    by_cases h : o.number = n
    · simp [h, hf]
    · simp [h, Ne.symm h]

section
variable {id : BitVec 24} {level : Nat} (hport : PortIs s g .rack) (hk : k ∉ s.racks[g].abandoned)
  (hf : Flying s g (.key k q)) (hin : InSlot s g k r d) (hst : d.state = .keying)
include hport hk hf hin hst

/-- KEY_DONE for the KEY in flight of a KEYING receiver. -/
theorem exec_keyDone_key : exec (.keyDone g (reportFrame 5 k id level)) s =
    .next (sendKeys (keySuccess r d (orderEnded g s))) := by
  obtain ⟨hocc, hd⟩ := hin
  have hocc' : (orderEnded g s).racks[g].slots[k].occupant = .receiver r := by
    rw [orderEnded, modRack_racks_self]
    exact hocc
  have hd' : (orderEnded g s).receivers[r].data = some d := hd
  have hsucceed : orderSucceeds g (.key k q) (orderEnded g s) = keySuccess r d (orderEnded g s) := by
    simp only [orderSucceeds, hocc', hd']
    exact if_pos hst
  rw [exec_keyDone hport, keyReport_of_not_abandoned hk]
  exact congrArg (fun t => Host.Outcome.next (sendKeys t))
    ((orderOutcome_of_flying (o := .key k q) hf none).trans hsucceed)

omit hport hk hf hin hst in
/-- What the success of a KEY brings about, the counts of its order apart. -/
theorem keySuccess_frame (hp : d.keyedProgram = some p) (r : RecNo) (s : State) :
    FleetFrame s (keySuccess r d s) ∧
    (keySuccess r d s).receivers = (s.changeReceiver r ReceiverData.keyedNow).receivers ∧
    (keySuccess r d s).pool = s.pool ∧ (keySuccess r d s).racks = s.racks ∧
    (keySuccess r d s).programs = (receiverKeyed r d p s).programs := by
  obtain ⟨hr, hpool, -, hracks⟩ := receiverKeyed_fleet r d p s
  have hframe := fleetFrame_receiverKeyed r d p s
  rw [keySuccess_eq hp]
  cases d.outfit with
  | none => exact ⟨hframe, hr, hpool, hracks, rfl⟩
  | some n =>
    obtain ⟨hframe', hr', hpool', hracks', hprog'⟩ := completeOrder_frame n (receiverKeyed r d p s)
    exact ⟨hframe.trans hframe', hr'.trans hr, hpool'.trans hpool, hracks'.trans hracks, hprog'⟩

omit hport hk hf hin hst in
theorem keySuccess_of_last (hp : d.keyedProgram = some p) (hn : d.outfit = some n) (ho : orderOf s n = some o)
    (hw : o.want ≤ o.keyed + 1) : keySuccess r d s =
      queueNotice .outfitDone (some n) (subjectOf o.program.val) (BitVec.ofNat 16 o.failed)
        { receiverKeyed r d p s with outfits := s.outfits.filter fun x => x.number ≠ n } := by
  have horders := (receiverKeyed_fleet r d p s).2.2.1
  rw [hn] at horders
  rw [keySuccess_eq hp, hn]
  refine (completeOrder_of_done (orderOf_map (f := OutfitOrder.keyedOne) (fun _ => rfl) horders ho) hw).trans ?_
  rw [horders, filter_map_ne (f := OutfitOrder.keyedOne) fun _ => rfl]
  rfl

omit hport hk hf hin hst in
/-- The orders after the success of a KEY (R122). -/
theorem keySuccess_outfits (hp : d.keyedProgram = some p) (hn : d.outfit = some n) (ho : orderOf s n = some o) :
    (keySuccess r d s).outfits = if o.want ≤ o.keyed + 1 then s.outfits.filter fun x => x.number ≠ n
      else s.outfits.map fun x => if x.number = n then
        { x with selected := x.selected - 1, keyed := x.keyed + 1 } else x := by
  by_cases hw : o.want ≤ o.keyed + 1
  · rw [keySuccess_of_last hp hn ho hw, queueNotice_outfits, if_pos hw]
  · have horders := (receiverKeyed_fleet r d p s).2.2.1
    rw [hn] at horders
    rw [keySuccess_eq hp, hn, if_neg hw]
    have hkeyed := orderOf_map (f := OutfitOrder.keyedOne) (fun _ => rfl) horders ho
    refine (congrArg State.outfits (completeOrder_of_open hkeyed hw)).trans ?_
    rw [horders]
    simp only [Option.some.injEq, eq_comm]
    rfl

end

/-- Settles O47: KEY_DONE by what the order in flight was, and late or stray outcomes by the abandoned list. -/
theorem keyOutcomesOfARack : Obligations.KeyOutcomesOfARack := by
  unfold Obligations.KeyOutcomesOfARack
  refine ⟨fun s g k id level hport hk => ⟨fun q p r d hf hin hst hp => ?_, fun hf => ?_⟩,
    fun s g k id level hport => ⟨fun hk => ?_, fun hk hf => ?_⟩⟩
  · obtain ⟨hframe, hr, hpool, hracks, hprog⟩ := keySuccess_frame hp r (orderEnded g s)
    obtain ⟨hkeyed, hissued⟩ := receiverKeyed_counts r d p (orderEnded g s)
    have hsent := onlySent_sendKeys (keySuccess r d (orderEnded g s))
    obtain ⟨-, -, hsprog, hsorders, hsrec⟩ := hsent.closure
    have hended : FleetFrame s (orderEnded g s) := fleetFrame_of_eq rfl
    refine ⟨_, exec_keyDone_key hport hk hf hin hst, (hended.trans hframe).trans (fleetFrame_sendKeys _), ?_, ?_, ?_,
      ?_, ?_, fun hn => ?_, fun n o hn ho => ?_, fun n o hn ho hw => ?_⟩
    · rw [hsrec, hr]
      obtain ⟨-, hd⟩ := hin
      show s.receivers.set r ⟨s.receivers[r].data.map _, _⟩ = _
      rw [hd]
      rfl
    · rw [hsprog, hprog, hkeyed]
      rfl
    · rw [hsprog, hprog, hissued]
      rfl
    · rw [sendKeys_racks, Rack.sent_eq, hracks, orderEnded, modRack_racks_self]
      rfl
    · rw [hsent.pool, hpool]
      rfl
    · rw [hsorders, keySuccess_eq hp, hn]
      refine (receiverKeyed_fleet r d p (orderEnded g s)).2.2.1.trans ?_
      rw [hn]
      exact List.map_id _
    · rw [hsorders]
      exact keySuccess_outfits (s := orderEnded g s) hp hn ho
    · have hgrow := hended.trans (fleetFrame_receiverKeyed r d p (orderEnded g s))
      exact ⟨_, congrArg sendKeys (keySuccess_of_last (s := orderEnded g s) hp hn ho hw), hgrow.notices,
        hgrow.limits, hgrow.clock⟩
  · rw [exec_keyDone hport, keyReport_of_not_abandoned hk]
    refine congrArg (fun t => Host.Outcome.next (sendKeys t)) ((orderOutcome_of_flying hf none).trans ?_)
    exact modRack_modRack s g Rack.finish fun e => e.owe k false
  · rw [exec_keyDone hport, exec_keyFail hport, keyReport_of_abandoned hk, keyReport_of_abandoned hk]
    exact ⟨rfl, rfl⟩
  · rw [exec_keyDone hport, exec_keyFail hport, keyReport_of_not_abandoned hk, keyReport_of_not_abandoned hk,
      orderOutcome_of_other hf, orderOutcome_of_other hf]
    exact ⟨rfl, rfl⟩

end Sys2Proof.Machine
end

section
/-! Receivers that become FAULTY (R123, R130, R142 to R144). -/

namespace Sys2Proof.Machine

open Laws

variable {s t u : State} {g h : PortNo} {k j : RackSlot} {r y : RecNo} {d : ReceiverData} {p q : ProgNo}
  {n : BitVec 16} {o : OutfitOrder} {e e' : Rack}

/-! ### Selection, rack by rack -/

/-- Only key queue, slots, grants and charge queue of a rack differ. -/
def OnlyQueues (e e' : Rack) : Prop := e' = { e with
  keyQueue := e'.keyQueue, slots := e'.slots, grants := e'.grants, chargeQueue := e'.chargeQueue }

theorem OnlyQueues.trans {e'' : Rack} (h : OnlyQueues e e') (h' : OnlyQueues e' e'') : OnlyQueues e e'' := by
  rw [OnlyQueues, h', h]

/-- Selection changes key queue and slots of a rack at most. -/
theorem runSelection_racks (s : State) (g : PortNo) : (runSelection s).racks[g] = { s.racks[g] with
    keyQueue := (runSelection s).racks[g].keyQueue, slots := (runSelection s).racks[g].slots } := by
  rw [runSelection_eq]
  refine forEach_keeps (P := fun t => t.racks[g] = { s.racks[g] with
    keyQueue := t.racks[g].keyQueue, slots := t.racks[g].slots }) _ (fun x t ht => ?_) s rfl
  rcases takeFor_racks x t g with hx | ⟨k, -, hx⟩
  · rwa [hx]
  · rw [hx, Rack.placeKey, Rack.owe, Rack.withWaiting, ht]

/-- A slot that owes no UNKEY stays as it is as receivers are selected. -/
theorem runSelection_slots (hk : s.racks[g].slots[k].unkeyOwed = false) :
    (runSelection s).racks[g].slots[k] = s.racks[g].slots[k] := by
  rw [runSelection_eq]
  refine forEach_keeps (P := fun t => t.racks[g].slots[k] = s.racks[g].slots[k]) _ (fun x t ht => ?_) s rfl
  rcases takeFor_racks x t g with hx | ⟨j, -, hx⟩
  · rwa [hx]
  · rw [hx, Rack.placeKey, Rack.owe, getElem_set_ite]
    refine Eq.trans ?_ ht
    split
    · next hj =>
      subst hj
      show (⟨t.racks[g].slots[j].occupant, false⟩ : SlotEntry) = _
      rw [ht, ← hk]
    · rfl

/-- What decides orders and pool after a selection. -/
theorem selectedFrom_iff {orders : List OutfitOrder} {pool : List RecNo} : SelectedFrom s t orders pool ↔
    t.outfits = orders.map (fun o =>
      { o with selected := o.selected + (assigned orders pool).countP fun x => o.number = x.1.number }) ∧
    t.pool = pool.drop (needOf orders) := by
  rw [SelectedFrom, runSelection_outfits, runSelection_pool]

/-! ### A slot's orders removed (R144) -/

theorem Rack.dropOrders_eq (k : RackSlot) (e : Rack) : e.dropOrders k = { e with
    keyQueue := (e.dropOrders k).keyQueue, inFlight := (e.dropOrders k).inFlight
    attempts := (e.dropOrders k).attempts, keyDeadline := (e.dropOrders k).keyDeadline
    abandoned := (e.dropOrders k).abandoned } := by
  unfold Rack.dropOrders
  dsimp only
  split
  · rfl
  · split <;> rfl

/-- With no order in flight the slot's waiting orders go, and no more. -/
theorem Rack.dropOrders_of_idle (h : e.inFlight = false) (k : RackSlot) :
    e.dropOrders k = { e with keyQueue := e.keyQueue.filter fun o => o.slot ≠ k } := by
  have hwaiting : e.waiting = e.keyQueue := by rw [Rack.waiting, h]; rfl
  have hflying : e.flying = none := by rw [Rack.flying, h]; rfl
  have hkeep : (fun o : KeyOrder => !(o.slot == k)) = fun o => decide (o.slot ≠ k) := by
    funext o
    by_cases ho : o.slot = k <;> simp [ho]
  have hdrop : e.withWaiting (e.waiting.filter fun o => !(o.slot == k)) =
      { e with keyQueue := e.keyQueue.filter fun o => o.slot ≠ k } := by
    rw [Rack.withWaiting, hflying, hwaiting, hkeep]
    rfl
  have hidle : (e.withWaiting (e.waiting.filter fun o => !(o.slot == k))).flying = none := by
    rw [hdrop, Rack.flying, h]
    rfl
  rw [Rack.dropOrders, hidle, hdrop]

/-! ### A receiver that failed (R130) -/

/-- A receiver that failed: FAULTY, without key, order or grant. -/
def ReceiverData.failed (d : ReceiverData) : ReceiverData :=
  { d with state := .faulty, keyedProgram := none, outfit := none, charging := false }

/-- The hub without a receiver's orders, and without its places in pool and charge queue (R130, R144). -/
def withdrawn (g : PortNo) (k : RackSlot) (r : RecNo) (s : State) : State :=
  chargeLeave g r (poolLeave r (s.modRack g fun e => (e.dropOrders k).owe k false))

/-- The receiver FAULTY, before programs, orders and other receivers take note. -/
def failedIn (g : PortNo) (k : RackSlot) (r : RecNo) (s : State) : State :=
  (if (withdrawn g k r s).racks[g].grants.contains r then
    freeGrant g r (handFrame g (.order (.revoke k)) (withdrawn g k r s)) else withdrawn g k r s).changeReceiver r
      ReceiverData.failed

theorem faultReceiver_eq (hd : s.receivers[r].data = some d) (hst : d.state ≠ .faulty) :
    faultReceiver g k r s = issueGrants g (faultEffect d (failedIn g k r s)) := by
  unfold faultReceiver
  rw [hd]
  exact if_neg hst

theorem faultReceiver_of_faulty (hd : s.receivers[r].data = some d) (hst : d.state = .faulty) :
    faultReceiver g k r s = s := by
  unfold faultReceiver
  rw [hd]
  exact if_pos hst

theorem filter_bne_eq (r : RecNo) (l : List RecNo) : (l.filter fun x => !(x == r)) = l.filter fun x => x ≠ r := by
  refine List.filter_congr fun x _ => ?_
  by_cases h : x = r <;> simp [h]

theorem not_mem_filter_ne (r : RecNo) (l : List RecNo) : r ∉ l.filter fun x => x ≠ r := by simp

/-- The rack of a failed receiver: its orders removed, and no grant or place in the charge queue left. -/
def Rack.without (k : RackSlot) (r : RecNo) (e : Rack) : Rack :=
  { (e.dropOrders k).owe k false with
    grants := e.grants.filter fun x => x ≠ r, chargeQueue := e.chargeQueue.filter fun x => x ≠ r }

theorem withdrawn_rack (g : PortNo) (k : RackSlot) (r : RecNo) (s : State) : (withdrawn g k r s).racks[g] =
    { s.racks[g].without k r with grants := s.racks[g].grants } := by
  rw [withdrawn, chargeLeave, modRack_racks_self, poolLeave]
  dsimp only
  rw [modRack_racks_self, filter_bne_eq, Rack.without, Rack.owe, Rack.dropOrders_eq]

theorem serviced_withdrawn (g : PortNo) (k : RackSlot) (r : RecNo) (s : State) : Serviced s (withdrawn g k r s) := by
  refine ((serviced_modRack s g ?_).trans (serviced_poolLeave r _)).trans (serviced_chargeLeave g r _)
  refine RackKept.trans ?_ (rackKept_owe _ k false)
  rw [Rack.dropOrders_eq]
  exact ⟨rfl, fun _ => rfl⟩

theorem serviced_handFrame (g : PortNo) (f : TxFrame) (s : State) : Serviced s (handFrame g f s) :=
  (granted_handFrame (Granted.refl g s)).serviced

/-- What is left of the hub as its receiver failed. -/
theorem failedIn_spec (hd : s.receivers[r].data = some d) (g : PortNo) (k : RackSlot) :
    Serviced s (failedIn g k r s) ∧ (failedIn g k r s).receivers[r].data = some d.failed ∧
      (failedIn g k r s).pool = s.pool.filter (· ≠ r) ∧ (failedIn g k r s).outfits = s.outfits ∧
      (failedIn g k r s).racks[g] = s.racks[g].without k r := by
  have hrack := withdrawn_rack g k r s
  have hserved := serviced_withdrawn g k r s
  have hpool : (withdrawn g k r s).pool = s.pool.filter (· ≠ r) := filter_bne_eq r s.pool
  have hdata : (withdrawn g k r s).receivers[r].data = some d := hd
  have horders : (withdrawn g k r s).outfits = s.outfits := rfl
  unfold failedIn
  generalize withdrawn g k r s = x at hrack hserved hpool hdata horders
  have hchange (y : State) : Serviced y (y.changeReceiver r ReceiverData.failed) :=
    serviced_changeReceiver y r fun _ => rfl
  by_cases hc : r ∈ x.racks[g].grants
  · rw [if_pos (List.contains_iff_mem.mpr hc)]
    refine ⟨((hserved.trans (serviced_handFrame g _ x)).trans (serviced_freeGrant g r _)).trans (hchange _), ?_, ?_, ?_,
      ?_⟩
    · rw [changeReceiver_self, freeGrant, noteReceiver_self, State.modRack_receivers, handFrame_receivers, hdata]
      rfl
    · rw [State.changeReceiver_pool, freeGrant, State.noteReceiver_pool, State.modRack_pool, handFrame_pool, hpool]
    · rw [State.changeReceiver_outfits, freeGrant, State.noteReceiver_outfits, State.modRack_outfits,
        handFrame_outfits, horders]
    · rw [State.changeReceiver_racks, freeGrant, State.noteReceiver_racks, modRack_racks_self, handFrame_racks, hrack,
        filter_bne_eq]
      rfl
  · rw [if_neg (mt List.contains_iff_mem.mp hc)]
    refine ⟨hserved.trans (hchange _), ?_, hpool, horders, ?_⟩
    · rw [changeReceiver_self, hdata]
      rfl
    · rw [hrack] at hc
      rw [State.changeReceiver_racks, hrack]
      have hgrants : s.racks[g].grants.filter (fun x => x ≠ r) = s.racks[g].grants :=
        List.filter_eq_self.mpr fun x hx => decide_eq_true fun e : x = r => hc (e ▸ hx)
      show _ = { s.racks[g].without k r with grants := s.racks[g].grants.filter fun x => x ≠ r }
      rw [hgrants]

/-! ### What a fault does by the state before it (R130) -/

theorem faultEffect_of_keying (hst : d.state = .keying) (s : State) :
    faultEffect d s = runSelection (modOrderOf d.outfit OutfitOrder.failedOne s) := by
  unfold faultEffect
  rw [hst]

theorem faultEffect_of_keyed (hst : d.state = .keyed) (hp : d.keyedProgram = some p) (s : State) :
    faultEffect d s = uncountKeyed p s := by
  unfold faultEffect
  rw [hst, hp]

theorem faultEffect_of_other (hst : d.state ≠ .keying) (s : State) :
    faultEffect d s = s ∨ ∃ p, faultEffect d s = uncountKeyed p s := by
  unfold faultEffect
  split
  · next h => exact absurd h hst
  · exact .inr ⟨_, rfl⟩
  · exact .inl rfl

theorem fleetFrame_modOrderOf (n : Option (BitVec 16)) (f : OutfitOrder → OutfitOrder) (s : State) :
    FleetFrame s (modOrderOf n f s) := by
  rw [modOrderOf_eq]
  exact fleetFrame_of_eq rfl

/-- What a fault leaves of the hub, but for orders, pool and counts. -/
theorem faultEffect_spec (d : ReceiverData) (hr : r ∉ s.pool) (g : PortNo) : FleetFrame s (faultEffect d s) ∧
    (faultEffect d s).receivers[r] = s.receivers[r] ∧ r ∉ (faultEffect d s).pool ∧
    OnlyQueues s.racks[g] (faultEffect d s).racks[g] ∧
    (faultEffect d s).racks[g].chargeQueue = s.racks[g].chargeQueue ∧
    (faultEffect d s).racks[g].grants = s.racks[g].grants ∧
    (s.pool = [] → (faultEffect d s).racks[g] = s.racks[g]) := by
  by_cases hst : d.state = .keying
  · rw [faultEffect_of_keying hst]
    have horders := modOrderOf_eq d.outfit OutfitOrder.failedOne s
    have hframe := fleetFrame_modOrderOf d.outfit OutfitOrder.failedOne s
    generalize modOrderOf d.outfit OutfitOrder.failedOne s = x at horders hframe ⊢
    have hpool : x.pool = s.pool := by rw [horders]
    have hracks : x.racks = s.racks := by rw [horders]
    have hrec : x.receivers = s.receivers := by rw [horders]
    rw [← hpool] at hr ⊢
    rw [← hracks, ← hrec]
    have hrack := runSelection_racks x g
    refine ⟨hframe.trans (serviced_runSelection x).fleetFrame, runSelection_receivers_of_not_mem hr,
      fun h => hr ?_, by rw [OnlyQueues, hrack], by rw [hrack], by rw [hrack],
      fun hp => by rw [runSelection_of_no_pool hp]⟩
    rw [runSelection_pool] at h
    exact List.mem_of_mem_drop h
  · rcases faultEffect_of_other hst s with he | ⟨p, he⟩
    · rw [he]
      exact ⟨(Serviced.refl s).fleetFrame, rfl, hr, rfl, rfl, rfl, fun _ => rfl⟩
    · rw [he, uncountKeyed]
      obtain ⟨hrec, hpool, -, hracks⟩ :=
        (onlyFollowers_changeCounts p (fun x => { x with keyed := x.keyed - 1 }) s).fleet
      rw [hrec, hpool, hracks]
      exact ⟨fleetFrame_changeCounts p _ s, rfl, hr, rfl, rfl, rfl, fun _ => rfl⟩

/-! ### The receiver in the slot becomes FAULTY -/

theorem OnlyQueues.granted (hg : Granted g s t) : OnlyQueues s.racks[g] t.racks[g] := by
  obtain ⟨n, hn⟩ := hg.rack
  rw [OnlyQueues, hn]

/-- The fault of a receiver (R130). -/
theorem faultyIn_faultReceiver (hd : s.receivers[r].data = some d) (hst : d.state ≠ .faulty) (g : PortNo)
    (k : RackSlot) : FaultyIn s (faultReceiver g k r s) g r d := by
  obtain ⟨hserved, hdata, hpool, horders, hrack⟩ := failedIn_spec hd g k
  have hout : r ∉ (failedIn g k r s).pool := hpool ▸ not_mem_filter_ne r s.pool
  obtain ⟨hframe, hrec, hr, -, hqueue, hgrants, -⟩ := faultEffect_spec d hout g
  have hgranted := granted_issueGrants g (faultEffect d (failedIn g k r s))
  have hnotq : r ∉ (faultEffect d (failedIn g k r s)).racks[g].chargeQueue := by
    rw [hqueue, hrack]
    exact not_mem_filter_ne r _
  have hnotg : r ∉ (faultEffect d (failedIn g k r s)).racks[g].grants := by
    rw [hgrants, hrack]
    exact not_mem_filter_ne r _
  have hsame : (issueGrants g (faultEffect d (failedIn g k r s))).outfits = (faultEffect d (failedIn g k r s)).outfits ∧
      (issueGrants g (faultEffect d (failedIn g k r s))).pool = (faultEffect d (failedIn g k r s)).pool ∧
      (issueGrants g (faultEffect d (failedIn g k r s))).programs =
        (faultEffect d (failedIn g k r s)).programs := by
    rw [hgranted.eq]
    exact ⟨rfl, rfl, rfl⟩
  obtain ⟨ho, hp, hprog⟩ := hsame
  rw [faultReceiver_eq hd hst]
  refine ⟨?_, hp ▸ hr, hgranted.not_mem_chargeQueue hnotq, hgranted.not_mem_grants hnotq hnotg, fun hk => ?_,
    fun hk => ?_,
    fun p hk hkp => ?_, (hserved.fleetFrame.trans hframe).trans (serviced_issueGrants g _).fleetFrame⟩
  · rw [hgranted.receivers_of_not_mem hnotq, hrec, hdata]
    rfl
  · rw [SelectedFrom, ho, hp, faultEffect_of_keying hk]
    refine selectedFrom_runSelection s ?_ ?_
    · rw [modOrderOf_eq]
      simp only [horders]
      rfl
    · rw [modOrderOf_eq]
      exact hpool
  · rw [ho, hp]
    rcases faultEffect_of_other hk (failedIn g k r s) with he | ⟨p, he⟩
    · rw [he]
      exact ⟨horders, hpool⟩
    · obtain ⟨-, hpool', horders', -⟩ :=
        (onlyFollowers_changeCounts p (fun x => { x with keyed := x.keyed - 1 }) (failedIn g k r s)).fleet
      rw [he]
      exact ⟨horders'.trans horders, hpool'.trans hpool⟩
  · obtain ⟨hkeyed, hissued⟩ := changeCounts_counts p (fun x => { x with keyed := x.keyed - 1 }) (failedIn g k r s)
    rw [hprog, faultEffect_of_keyed hk hkp, uncountKeyed, hkeyed, hissued, hserved.programs]
    exact ⟨rfl, rfl⟩

/-- What is left of the rack of a receiver that failed. -/
theorem faultReceiver_rack (hd : s.receivers[r].data = some d) (hst : d.state ≠ .faulty) (g : PortNo)
    (k : RackSlot) : OnlyQueues (s.racks[g].dropOrders k) (faultReceiver g k r s).racks[g] ∧
      (s.pool = [] → (faultReceiver g k r s).racks[g].keyQueue = (s.racks[g].dropOrders k).keyQueue) := by
  obtain ⟨-, -, hpool, -, hrack⟩ := failedIn_spec hd g k
  have hout : r ∉ (failedIn g k r s).pool := hpool ▸ not_mem_filter_ne r s.pool
  obtain ⟨-, -, -, hqueues, -, -, hnone⟩ := faultEffect_spec d hout g
  have hgranted := granted_issueGrants g (faultEffect d (failedIn g k r s))
  have hwithout : OnlyQueues (s.racks[g].dropOrders k) (s.racks[g].without k r) := by
    rw [OnlyQueues, Rack.without, Rack.owe]
  rw [faultReceiver_eq hd hst]
  refine ⟨(hwithout.trans (hrack ▸ hqueues)).trans (OnlyQueues.granted hgranted), fun hp => ?_⟩
  obtain ⟨n, hn⟩ := hgranted.rack
  have hempty : (failedIn g k r s).pool = [] := by rw [hpool, hp]; rfl
  rw [hn, hnone hempty, hrack]
  rfl

/-- A FAULTY receiver is so to later events that leave receivers, pool, orders and programs alone. -/
theorem FaultyIn.of_later (hf : FaultyIn s t g r d) (hrec : u.receivers = t.receivers) (hpool : u.pool = t.pool)
    (horders : u.outfits = t.outfits) (hprog : u.programs = t.programs)
    (hgrants : u.racks[g].grants = t.racks[g].grants) (hqueue : u.racks[g].chargeQueue = t.racks[g].chargeQueue)
    (hframe : FleetFrame t u) : FaultyIn s u g r d := by
  obtain ⟨h1, h2, h3, h4, h5, h6, h7, h8⟩ := hf
  refine ⟨hrec ▸ h1, hpool ▸ h2, hqueue ▸ h3, hgrants ▸ h4, fun hk => ?_, fun hk => ?_, fun p hk hp => ?_,
    h8.trans hframe⟩
  · rw [SelectedFrom, horders, hpool]
    exact h5 hk
  · rw [horders, hpool]
    exact h6 hk
  · rw [hprog]
    exact h7 p hk hp

theorem FaultyIn.sendKeys (hf : FaultyIn s t g r d) : FaultyIn s (sendKeys t) g r d := by
  obtain ⟨-, -, hprog, horders, hrec⟩ := (onlySent_sendKeys t).closure
  refine hf.of_later hrec (onlySent_sendKeys t).pool horders hprog ?_ ?_ (fleetFrame_sendKeys t)
  · rw [sendKeys_racks, Rack.sent_eq]
  · rw [sendKeys_racks, Rack.sent_eq]

theorem FaultyIn.keyFailedNotice (hf : FaultyIn s t g r d) (cause kind : Nat) :
    FaultyIn s (keyFailedNotice r d cause kind t) g r d :=
  hf.of_later (by rw [Machine.keyFailedNotice, queueNotice_receivers])
    (by rw [Machine.keyFailedNotice, queueNotice_pool])
    (by rw [Machine.keyFailedNotice, queueNotice_outfits]) (by rw [Machine.keyFailedNotice, queueNotice_programs])
    (by rw [Machine.keyFailedNotice, queueNotice_racks]) (by rw [Machine.keyFailedNotice, queueNotice_racks])
    (fleetFrame_queueNotice _ _ _ _ t)

theorem FaultyIn.frame (hf : FaultyIn s t g r d) : FleetFrame s t := by
  obtain ⟨-, -, -, -, -, -, -, hframe⟩ := hf
  exact hframe

/-- The order that left the head of the queue before makes no difference to the fault. -/
theorem FaultyIn.of_orderEnded (hf : FaultyIn (orderEnded h s) t g r d) : FaultyIn s t g r d := by
  obtain ⟨h1, h2, h3, h4, h5, h6, h7, h8⟩ := hf
  exact ⟨h1, h2, h3, h4, fun hk => selectedFrom_iff.mpr (selectedFrom_iff.mp (h5 hk)), h6, h7,
    (fleetFrame_of_eq rfl : FleetFrame s (orderEnded h s)).trans h8⟩

/-! ### KEY_FAILED (R132) -/

theorem keyFailedSaid_of_notice (hs : FleetFrame s t) {cause kind detail : Nat} (hdetail : 256 * cause + kind = detail)
    (hu : NoticesGrow (keyFailedNotice r d cause kind t) u) : KeyFailedSaid s u r d detail := by
  subst hdetail
  intro hen hlen
  rw [← hs.limits] at hen
  have hgrow : NoticesGrow t (keyFailedNotice r d cause kind t) := noticesGrow_queueNotice _ _ _ _ t
  have hroom : t.notices.length < 16 := ((hgrow.trans hu).length_le).trans_lt hlen
  refine hu.subset ?_
  rw [keyFailedNotice, queueNotice_room t hen hroom, ← hs.clock]
  exact List.mem_append_right _ List.mem_cons_self

/-! ### The order in flight fails (R123, R142) -/

/-- What can be sent of an idle rack is in flight afterwards. -/
theorem Rack.sent_of_idle (hfl : e.inFlight = false) (ha : e.attempts = 0) (hdl : e.keyDeadline = none)
    (now : Clock) : (e.sent now).attempts = 0 ∧ (e.sent now).inFlight = (e.online && !e.keyQueue.isEmpty) ∧
      (e.sent now).keyDeadline = if (e.sent now).inFlight then some (now + 2000) else none := by
  by_cases h : e.online = true ∧ e.inFlight = false ∧ e.keyQueue ≠ []
  · obtain ⟨hon, -, hq⟩ := id h
    rw [Rack.sent, if_pos h]
    simp [hon, hq]
  · rw [Rack.sent, if_neg h, hfl, ha, hdl]
    refine ⟨rfl, (Bool.eq_false_iff.mpr fun hs => h ?_).symm, rfl⟩
    obtain ⟨hon, hq⟩ : e.online = true ∧ e.keyQueue ≠ [] := by simpa using hs
    exact ⟨hon, hfl, hq⟩

section
variable {o : KeyOrder} (hf : Flying s g o) (hin : InSlot s g o.slot r d)
include hf hin

/-- The failure of the order in flight: the fault, and KEY_FAILED. -/
theorem orderOutcome_of_failure (cause : Nat) : orderOutcome g o.slot (some cause) s =
    keyFailedNotice r d cause o.kind (faultReceiver g o.slot r (orderEnded g s)) := by
  obtain ⟨hocc, hd⟩ := hin
  have hocc' : (orderEnded g s).racks[g].slots[o.slot].occupant = .receiver r := by
    rw [orderEnded, modRack_racks_self]
    exact hocc
  have hd' : (orderEnded g s).receivers[r].data = some d := hd
  refine (orderOutcome_of_flying hf (some cause)).trans ?_
  show orderFails g o cause (orderEnded g s) = _
  simp only [orderFails, hocc', hd']

variable (hst : d.state ≠ .faulty)
include hst

theorem faultyIn_failure (cause : Nat) :
    FaultyIn s (sendKeys (orderOutcome g o.slot (some cause) s)) g r d := by
  rw [orderOutcome_of_failure hf hin]
  have hfaulty := (faultyIn_faultReceiver (s := orderEnded g s) hin.2 hst g o.slot).of_orderEnded
  exact (hfaulty.keyFailedNotice cause o.kind).sendKeys

theorem keyFailedSaid_failure {cause detail : Nat} (hdetail : 256 * cause + o.kind = detail) :
    KeyFailedSaid s (sendKeys (orderOutcome g o.slot (some cause) s)) r d detail := by
  have hframe := (faultyIn_faultReceiver (s := orderEnded g s) hin.2 hst g o.slot).of_orderEnded.frame
  rw [orderOutcome_of_failure hf hin]
  exact keyFailedSaid_of_notice hframe hdetail (grown_sendKeys _).2.2

/-- The rack after the failure of its order in flight. -/
theorem rack_failure (cause : Nat) :
    let t := sendKeys (orderOutcome g o.slot (some cause) s)
    t.racks[g].attempts = 0 ∧ t.racks[g].abandoned = s.racks[g].abandoned ∧
      t.racks[g].inFlight = (s.racks[g].online && !t.racks[g].keyQueue.isEmpty) ∧
      t.racks[g].keyDeadline = (if t.racks[g].inFlight then some (s.clock + 2000) else none) ∧
      (s.pool = [] → t.racks[g].keyQueue = (s.racks[g].keyQueue.drop 1).filter fun x => x.slot ≠ o.slot) := by
  intro t
  have hframe := (faultyIn_faultReceiver (s := orderEnded g s) hin.2 hst g o.slot).of_orderEnded.frame
  obtain ⟨hqueues, hqueue⟩ := faultReceiver_rack (s := orderEnded g s) hin.2 hst g o.slot
  have hended : (orderEnded g s).racks[g] = s.racks[g].finish := modRack_racks_self s g _
  have hrack : t.racks[g] = (faultReceiver g o.slot r (orderEnded g s)).racks[g].sent s.clock := by
    show (sendKeys _).racks[g] = _
    rw [sendKeys_racks, orderOutcome_of_failure hf hin, keyFailedNotice, queueNotice_racks, queueNotice_clock,
      hframe.clock]
  rw [hended, Rack.dropOrders_of_idle (e := s.racks[g].finish) rfl] at hqueues hqueue
  obtain ⟨ha, hfl, hdl⟩ := Rack.sent_of_idle (e := (faultReceiver g o.slot r (orderEnded g s)).racks[g])
    (by rw [hqueues]; rfl) (by rw [hqueues]; rfl) (by rw [hqueues]; rfl) s.clock
  have hkeyQueue : t.racks[g].keyQueue = (faultReceiver g o.slot r (orderEnded g s)).racks[g].keyQueue := by
    rw [hrack, Rack.sent_eq]
  have habandoned : t.racks[g].abandoned = s.racks[g].abandoned := by
    rw [hrack, Rack.sent_eq, hqueues]
    rfl
  have hon : (faultReceiver g o.slot r (orderEnded g s)).racks[g].online = s.racks[g].online := by
    rw [hqueues]
    rfl
  rw [habandoned, hkeyQueue, hrack]
  exact ⟨ha, rfl, by rw [hfl, hon], hdl, fun hp => hqueue hp⟩

end

theorem keyExpiry_of_exhausted {o : KeyOrder} (hf : Flying s g o) (hdue : s.due s.racks[g].keyDeadline = true)
    (hret : s.limits.keyRetries ≤ s.racks[g].attempts) : keyExpiry g s = orderOutcome g o.slot (some 2) s := by
  unfold keyExpiry
  simp only [flying_of_flying hf]
  exact (if_pos hdue).trans (if_neg (Nat.not_lt.mpr hret))

theorem exec_keyDeadlineExpiry_exhausted {o : KeyOrder} (hrun : s.phase = .running) (hf : Flying s g o)
    (hdue : s.due s.racks[g].keyDeadline = true) (hret : s.limits.keyRetries ≤ s.racks[g].attempts) :
    exec (.keyDeadlineExpiry g) s = .next (sendKeys (orderOutcome g o.slot (some 2) s)) := by
  change execKeyDeadlineExpiry g s = _
  rw [execKeyDeadlineExpiry, running_of_running s hrun, keyExpiry_of_exhausted hf hdue hret]

theorem exec_keyFail_flying (hport : PortIs s g .rack) (hk : k ∉ s.racks[g].abandoned) (id : BitVec 24) (level : Nat) :
    exec (.keyFail g (reportFrame 6 k id level)) s = .next (sendKeys (orderOutcome g k (some 1) s)) := by
  rw [exec_keyFail hport, keyReport_of_not_abandoned hk]

/-! ### SLOT_FAULT (R144) -/

theorem slotFaultReport_of_receiver (hin : InSlot s g k r d) : slotFaultReport g k s =
    if d.state = .keying then keyFailedNotice r d 3 1 (faultReceiver g k r s) else faultReceiver g k r s := by
  obtain ⟨hocc, hd⟩ := hin
  simp only [slotFaultReport, hocc, hd]

theorem slotFaultReport_of_other (h : s.racks[g].slots[k].occupant = .empty ∨
    s.racks[g].slots[k].occupant = .unregistered) : slotFaultReport g k s = s := by
  unfold slotFaultReport
  rcases h with h | h <;> rw [h]

/-- Settles O46: each failure by `faultReceiver`, with the rack and the notice that the failed order leaves. -/
theorem failuresMakeFaulty : Obligations.FailuresMakeFaulty := by
  unfold Obligations.FailuresMakeFaulty
  refine ⟨fun s g o r d hf hin hst => ?_, fun s g k id level hport => ⟨fun r d hin hst => ?_, fun r d hin hst => ?_,
    fun hocc => ?_⟩⟩
  · intro kind ended
    have hkind : o.kind = kind := by cases o <;> rfl
    refine ⟨fun hrun hdue hret => ⟨_, exec_keyDeadlineExpiry_exhausted hrun hf hdue hret, ?_⟩,
      fun hport hk id level => ⟨_, exec_keyFail_flying hport hk id level, ?_⟩⟩
    · exact ⟨faultyIn_failure hf hin hst 2, rack_failure hf hin hst 2, keyFailedSaid_failure hf hin hst (by rw [hkind])⟩
    · exact ⟨faultyIn_failure hf hin hst 1, rack_failure hf hin hst 1, keyFailedSaid_failure hf hin hst (by rw [hkind])⟩
  · have hfaulty := faultyIn_faultReceiver hin.2 hst g k
    have hframe := hfaulty.frame
    refine ⟨_, exec_slotFault hport k id level, ?_⟩
    rw [slotFaultReport_of_receiver hin]
    by_cases hk : d.state = .keying
    · rw [if_pos hk]
      exact ⟨(hfaulty.keyFailedNotice 3 1).sendKeys,
        fun _ => keyFailedSaid_of_notice hframe rfl (grown_sendKeys _).2.2⟩
    · rw [if_neg hk]
      exact ⟨hfaulty.sendKeys, fun h => absurd h hk⟩
  · have hk : ¬ d.state = .keying := by rw [hst]; decide
    rw [exec_slotFault hport, slotFaultReport_of_receiver hin, if_neg hk, faultReceiver_of_faulty hin.2 hst]
  · rw [exec_slotFault hport, slotFaultReport_of_other hocc]

end Sys2Proof.Machine
end

section
/-! Receivers that leave their slot (R116, R125). -/

namespace Sys2Proof.Machine

open Laws

variable {s t u : State} {g h : PortNo} {k j : RackSlot} {r y : RecNo} {d : ReceiverData} {p q : ProgNo}

/-! ### The slot emptied -/

/-- The hub with a slot emptied, and the receiver's orders, places and grant taken back (R125, R144). -/
def vacated (g : PortNo) (k : RackSlot) (r : RecNo) (s : State) : State :=
  emptySlot g k (freeGrant g r (chargeLeave g r (poolLeave r (s.modRack g (Rack.dropOrders k)))))

theorem undockReceiver_eq (hd : s.receivers[r].data = some d) (g : PortNo) (k : RackSlot) :
    undockReceiver g k r s = issueGrants g (undockEffect r d (vacated g k r s)) := by
  unfold undockReceiver
  rw [hd]
  rfl

/-- The rack that a receiver left. -/
def Rack.vacant (k : RackSlot) (r : RecNo) (e : Rack) : Rack :=
  { e.dropOrders k with
    grants := e.grants.filter fun x => x ≠ r, chargeQueue := e.chargeQueue.filter fun x => x ≠ r
    slots := e.slots.set k SlotEntry.initial }

theorem vacated_racks (g : PortNo) (k : RackSlot) (r : RecNo) (s : State) :
    (vacated g k r s).racks = s.racks.set g (s.racks[g].vacant k r) := by
  simp only [vacated, emptySlot, State.modSlot_racks, freeGrant, State.noteReceiver_racks, State.modRack_racks,
    chargeLeave, poolLeave, Fin.getElem_fin, Vector.getElem_set_self, Vector.set_set, filter_bne_eq]
  rw [Rack.vacant, Rack.dropOrders_eq]

theorem vacated_eq (g : PortNo) (k : RackSlot) (r : RecNo) (s : State) : vacated g k r s = { s with
    receivers := (s.noteReceiver r fun d => { d with charging := false }).receivers
    pool := s.pool.filter (· ≠ r)
    racks := s.racks.set g (s.racks[g].vacant k r) } := by
  rw [← vacated_racks, ← filter_bne_eq]
  simp only [vacated, emptySlot, State.modSlot, freeGrant, State.noteReceiver, State.modReceiver, chargeLeave,
    poolLeave, State.modRack]

theorem vacated_rack (g : PortNo) (k : RackSlot) (r : RecNo) (s : State) :
    (vacated g k r s).racks[g] = s.racks[g].vacant k r := by
  rw [vacated_eq]
  exact modRack_racks_self s g _

theorem vacated_data (hd : s.receivers[r].data = some d) (g : PortNo) (k : RackSlot) :
    (vacated g k r s).receivers[r].data = some { d with charging := false } := by
  rw [vacated_eq]
  exact (noteReceiver_self s r _).trans (by rw [hd]; rfl)

theorem vacated_generation (g : PortNo) (k : RackSlot) (r : RecNo) (s : State) :
    (vacated g k r s).receivers[r].generation = s.receivers[r].generation := by
  rw [vacated_eq]
  simp

/-! ### The receiver's own part (R125) -/

/-- What becomes of a receiver that leaves its slot, by its state; none once its record is freed. -/
def ReceiverData.left (s : State) (d : ReceiverData) : Option ReceiverData :=
  match d.state with
  | .keyed => some { d.away .issued with
      issueStamp := some s.clock, loanDeadline := some (s.after (s.limits.loanMin * 60000)) }
  | .keying => some { d.away .stray with keyedProgram := none, outfit := none }
  | .faulty => none
  | .dockedCharging | .dockedReady => some (d.away .stray)
  | .issued | .overdue | .stray => some d

/-- The record of a receiver that left. -/
def gone (r : RecNo) (d : ReceiverData) (s : State) : State :=
  s.modReceiver r fun x => ⟨d.left s, x.generation + 1⟩

theorem modReceiver_congr {f f' : Receiver → Receiver} (h : f s.receivers[r] = f' s.receivers[r]) :
    s.modReceiver r f = s.modReceiver r f' := by
  rw [State.modReceiver, h, State.modReceiver]

theorem changeReceiver_eq_gone (hs : s.receivers[r].data = some { d with charging := false })
    {f : ReceiverData → ReceiverData} (hf : some (f { d with charging := false }) = d.left s) :
    s.changeReceiver r f = gone r d s := by
  refine modReceiver_congr ?_
  rw [hs, ← hf]
  rfl

section
variable (hs : s.receivers[r].data = some { d with charging := false })
include hs

theorem undockEffect_of_keyed (hst : d.state = .keyed) (hp : d.keyedProgram = some p) :
    undockEffect r d s = countIssue p (gone r d s) := by
  have hleft := changeReceiver_eq_gone hs (f := fun d => { d.away .issued with
    issueStamp := some s.clock, loanDeadline := some (s.after (s.limits.loanMin * 60000)) })
    (by rw [ReceiverData.left, hst]; rfl)
  unfold undockEffect
  simp only [hst, hp, hleft]

theorem undockEffect_of_keying (hst : d.state = .keying) :
    undockEffect r d s = runSelection (modOrderOf d.outfit OutfitOrder.lostOne (gone r d s)) := by
  have hleft := changeReceiver_eq_gone hs (f := fun d => { d.away .stray with keyedProgram := none, outfit := none })
    (by rw [ReceiverData.left, hst]; rfl)
  unfold undockEffect
  simp only [hst, hleft]

/-- A receiver that was not KEYING leaves; a KEYED one is counted. -/
theorem undockEffect_of_other (hst : d.state ≠ .keying) (hi : d.state ≠ .issued) (ho : d.state ≠ .overdue)
    (hy : d.state ≠ .stray) : undockEffect r d s = gone r d s ∨
      d.state = .keyed ∧ ∃ p, undockEffect r d s = countIssue p (gone r d s) := by
  cases hstate : d.state with
  | keyed =>
    cases hp : d.keyedProgram with
    | none =>
      have hleft := changeReceiver_eq_gone hs (f := fun d => { d.away .issued with
        issueStamp := some s.clock, loanDeadline := some (s.after (s.limits.loanMin * 60000)) })
        (by rw [ReceiverData.left, hstate]; rfl)
      left
      unfold undockEffect
      simp only [hstate, hp, hleft]
    | some p => exact .inr ⟨rfl, p, undockEffect_of_keyed hs hstate hp⟩
  | dockedCharging | dockedReady =>
    left
    unfold undockEffect
    simp only [hstate]
    exact changeReceiver_eq_gone hs (by rw [ReceiverData.left, hstate]; rfl)
  | faulty =>
    left
    unfold undockEffect
    simp only [hstate]
    exact modReceiver_congr (by rw [ReceiverData.left, hstate])
  | keying => exact absurd hstate hst
  | issued => exact absurd hstate hi
  | overdue => exact absurd hstate ho
  | stray => exact absurd hstate hy

end

/-- What leaves the hub alone as a receiver leaves it, but for orders, pool and counts. -/
theorem undockEffect_spec (hs : s.receivers[r].data = some { d with charging := false }) (hr : r ∉ s.pool)
    (hi : d.state ≠ .issued) (ho : d.state ≠ .overdue) (hy : d.state ≠ .stray) (g : PortNo) :
    FleetFrame s (undockEffect r d s) ∧
    (undockEffect r d s).receivers[r] = ⟨d.left s, s.receivers[r].generation + 1⟩ ∧
    r ∉ (undockEffect r d s).pool ∧
    OnlyQueues s.racks[g] (undockEffect r d s).racks[g] ∧
    (undockEffect r d s).racks[g].chargeQueue = s.racks[g].chargeQueue ∧
    (undockEffect r d s).racks[g].grants = s.racks[g].grants ∧
    (∀ k : RackSlot, s.racks[g].slots[k].unkeyOwed = false →
      (undockEffect r d s).racks[g].slots[k] = s.racks[g].slots[k]) := by
  have hgone : FleetFrame s (gone r d s) := fleetFrame_of_eq rfl
  have hrecord : (gone r d s).receivers[r] = ⟨d.left s, s.receivers[r].generation + 1⟩ := modReceiver_self s r _
  by_cases hst : d.state = .keying
  · have horders := modOrderOf_eq d.outfit OutfitOrder.lostOne (gone r d s)
    have hframe := hgone.trans (fleetFrame_modOrderOf d.outfit OutfitOrder.lostOne (gone r d s))
    rw [undockEffect_of_keying hs hst]
    generalize modOrderOf d.outfit OutfitOrder.lostOne (gone r d s) = x at horders hframe ⊢
    have hpool : x.pool = s.pool := by rw [horders]; rfl
    have hracks : x.racks = s.racks := by rw [horders]; rfl
    have hrec : x.receivers = (gone r d s).receivers := by rw [horders]
    rw [← hpool] at hr
    rw [← hracks, ← hrecord, ← hrec]
    have hrack := runSelection_racks x g
    refine ⟨hframe.trans (serviced_runSelection x).fleetFrame, runSelection_receivers_of_not_mem hr,
      fun h => hr ?_, by rw [OnlyQueues, hrack], by rw [hrack], by rw [hrack], fun k hk => runSelection_slots hk⟩
    rw [runSelection_pool] at h
    exact List.mem_of_mem_drop h
  · rcases undockEffect_of_other hs hst hi ho hy with he | ⟨-, p, he⟩
    · rw [he]
      exact ⟨hgone, hrecord, hr, rfl, rfl, rfl, fun _ _ => rfl⟩
    · rw [he, countIssue]
      obtain ⟨hrec, hpool, -, hracks⟩ := (onlyFollowers_changeCounts p
        (fun x => { x with keyed := x.keyed - 1, issued := x.issued + 1 }) (gone r d s)).fleet
      rw [hrec, hpool, hracks]
      exact ⟨hgone.trans (fleetFrame_changeCounts p _ _), hrecord, hr, rfl, rfl, rfl, fun _ _ => rfl⟩

/-! ### UNDOCK (R125) -/

theorem undockSlot_of_receiver (hin : InSlot s g k r d) : undockSlot g k s = undockReceiver g k r s := by
  obtain ⟨hocc, -⟩ := hin
  unfold undockSlot
  rw [hocc]

theorem undockSlot_of_unregistered (h : s.racks[g].slots[k].occupant = .unregistered) :
    undockSlot g k s = emptySlot g k s := by
  unfold undockSlot
  rw [h]

theorem undockSlot_of_empty (h : s.racks[g].slots[k].occupant = .empty) : undockSlot g k s = s := by
  unfold undockSlot
  rw [h]

/-- What a receiver's undocking leaves once the grants that follow are issued and what can be sent is sent. -/
theorem undockReceiver_sent (hd : s.receivers[r].data = some d) (hi : d.state ≠ .issued) (ho : d.state ≠ .overdue)
    (hy : d.state ≠ .stray) (g : PortNo) (k : RackSlot) :
    let v := undockEffect r d (vacated g k r s)
    let t := sendKeys (undockReceiver g k r s)
    FleetFrame s t ∧ t.racks[g].slots[k] = ⟨.empty, false⟩ ∧ r ∉ t.pool ∧ r ∉ t.racks[g].grants ∧
      r ∉ t.racks[g].chargeQueue ∧ t.receivers[r] = ⟨d.left s, s.receivers[r].generation + 1⟩ ∧
      t.outfits = v.outfits ∧ t.pool = v.pool ∧ t.programs = v.programs := by
  intro v t
  have hvacated : FleetFrame s (vacated g k r s) := by
    rw [vacated_eq]
    exact fleetFrame_of_eq rfl
  have hrack := vacated_rack g k r s
  have hgeneration := vacated_generation g k r s
  have hout : r ∉ (vacated g k r s).pool := by
    rw [vacated_eq]
    exact not_mem_filter_ne r s.pool
  have hleft : d.left (vacated g k r s) = d.left s := by
    rw [vacated_eq]
    rfl
  obtain ⟨hframe, hrec, hr, -, hqueue, hgrants, hslot⟩ :=
    undockEffect_spec (vacated_data hd g k) hout hi ho hy g
  have hgranted := granted_issueGrants g v
  have hnotq : r ∉ v.racks[g].chargeQueue := by
    rw [hqueue, hrack]
    exact not_mem_filter_ne r _
  have hnotg : r ∉ v.racks[g].grants := by
    rw [hgrants, hrack]
    exact not_mem_filter_ne r _
  have hinitial : s.racks[g].vacant k r |>.slots[k] = SlotEntry.initial := by simp [Rack.vacant]
  have hempty : v.racks[g].slots[k] = SlotEntry.initial := by
    refine (hslot k ?_).trans ?_
    · rw [hrack, hinitial]
      rfl
    · rw [hrack, hinitial]
  have hundock : undockReceiver g k r s = issueGrants g v := undockReceiver_eq hd g k
  have ht : OnlySent (issueGrants g v) t := hundock ▸ onlySent_sendKeys (undockReceiver g k r s)
  obtain ⟨-, -, hprog, horders, hreceivers⟩ := ht.closure
  have htrack : t.racks[g] = (issueGrants g v).racks[g].sent (issueGrants g v).clock :=
    hundock ▸ sendKeys_racks (undockReceiver g k r s) g
  rw [Rack.sent_eq] at htrack
  refine ⟨(hvacated.trans hframe).trans ((serviced_issueGrants g v).fleetFrame.trans
    (hundock ▸ fleetFrame_sendKeys (undockReceiver g k r s))), ?_, ?_, ?_, ?_, ?_, ?_, ?_, ?_⟩
  · obtain ⟨n, hn⟩ := hgranted.rack
    rw [htrack, hn]
    exact hempty
  · rw [ht.pool, hgranted.eq]
    exact hr
  · rw [htrack]
    exact hgranted.not_mem_grants hnotq hnotg
  · rw [htrack]
    exact hgranted.not_mem_chargeQueue hnotq
  · rw [hreceivers, hgranted.receivers_of_not_mem hnotq, hrec, hleft, hgeneration]
  · rw [horders, hgranted.eq]
  · rw [ht.pool, hgranted.eq]
  · rw [hprog, hgranted.eq]

/-- Settles O50: `gone` is the receiver's record by its state, and orders, pool and counts follow by `undockEffect`. -/
theorem undockByWhatTheSlotHolds : Obligations.UndockByWhatTheSlotHolds := by
  unfold Obligations.UndockByWhatTheSlotHolds
  intro s g k id level hport
  refine ⟨fun r d hin hi ho hy => ?_, fun hocc => ?_, fun hocc => ?_⟩
  · have hexec := exec_undock hport k id level
    rw [undockSlot_of_receiver hin] at hexec
    have hd := hin.2
    have hs := vacated_data hd g k
    obtain ⟨hframe, hslot, hr, hgrants, hqueue, hrec, horders, hpool, hprog⟩ := undockReceiver_sent hd hi ho hy g k
    refine ⟨_, hexec, hframe, hslot, hr, hgrants, hqueue, by rw [hrec], fun hk => ?_, fun hk => ?_, fun hk => ?_,
      fun p hk hp => ⟨by rw [hrec, ReceiverData.left, hk]; rfl, ?_⟩, fun hk => ?_, fun hk => ?_, fun hk => ?_⟩
    · rw [hprog]
      by_cases hkeying : d.state = .keying
      · rw [undockEffect_of_keying hs hkeying, (serviced_runSelection _).programs, modOrderOf_eq, vacated_eq]
        rfl
      · obtain he | ⟨he, -⟩ := undockEffect_of_other hs hkeying hi ho hy
        · rw [he, vacated_eq]
          rfl
        · exact absurd he hk
    · rw [SelectedFrom, horders, hpool, undockEffect_of_keying hs hk]
      refine selectedFrom_runSelection s ?_ ?_
      · rw [modOrderOf_eq, vacated_eq]
        rfl
      · rw [modOrderOf_eq, vacated_eq]
        rfl
    · rw [horders, hpool]
      obtain he | ⟨-, p, he⟩ := undockEffect_of_other hs hk hi ho hy
      · rw [he, vacated_eq]
        exact ⟨rfl, rfl⟩
      · obtain ⟨-, hpool', horders', -⟩ := (onlyFollowers_changeCounts p
          (fun x => { x with keyed := x.keyed - 1, issued := x.issued + 1 }) (gone r d (vacated g k r s))).fleet
        rw [he, countIssue, hpool', horders', vacated_eq]
        exact ⟨rfl, rfl⟩
    · obtain ⟨hkeyed, hissued⟩ := changeCounts_counts p
        (fun x => { x with keyed := x.keyed - 1, issued := x.issued + 1 }) (gone r d (vacated g k r s))
      rw [hprog, undockEffect_of_keyed hs hk hp, countIssue, hkeyed, hissued, vacated_eq]
      exact ⟨rfl, rfl⟩
    · rw [hrec, ReceiverData.left]
      rcases hk with hk | hk <;> rw [hk] <;> rfl
    · rw [hrec, ReceiverData.left, hk]
      rfl
    · rw [hrec, ReceiverData.left, hk]
  · rw [exec_undock hport, undockSlot_of_unregistered hocc]
    rfl
  · rw [exec_undock hport, undockSlot_of_empty hocc]

end Sys2Proof.Machine
end

section
/-! A receiver's place in ready pool and charge queue (R118, R137). -/

namespace Sys2Proof.Machine

open Laws

variable {s t w : State} {g : PortNo} {k : RackSlot} {r y : RecNo} {d e : ReceiverData} {n : BitVec 16}

/-! ### A record written -/

/-- A receiver record written. -/
def State.record (s : State) (r : RecNo) (x : Receiver) : State := s.modReceiver r fun _ => x

theorem record_self (s : State) (r : RecNo) (x : Receiver) : (s.record r x).receivers[r] = x := modReceiver_self s r _

theorem record_record (s : State) (r : RecNo) (x x' : Receiver) : (s.record r x).record r x' = s.record r x' := by
  simp [State.record, State.modReceiver]

theorem noteReceiver_eq_record (hd : s.receivers[r].data = some d) (f : ReceiverData → ReceiverData) :
    s.noteReceiver r f = s.record r ⟨some (f d), s.receivers[r].generation⟩ :=
  modReceiver_congr (by rw [hd]; rfl)

theorem changeReceiver_eq_record (hd : s.receivers[r].data = some d) (f : ReceiverData → ReceiverData) :
    s.changeReceiver r f = s.record r ⟨some (f d), s.receivers[r].generation + 1⟩ :=
  modReceiver_congr (by rw [hd]; rfl)

/-- A docked receiver stays docked when a record is written whose place is kept. -/
theorem docked_record (hp : e.place ≠ none) (hr : Docked s r → e.dockStamp ≠ none) (hy : Docked s y) {n} :
    Docked (s.record r ⟨some e, n⟩) y := by
  by_cases h : r = y
  · subst h
    exact ⟨e, by rw [record_self], hp, hr hy⟩
  · obtain ⟨d, hd, hdock⟩ := hy
    exact ⟨d, by rw [State.record, modReceiver_ne s h, hd], hdock⟩

/-! ### The charge queue (R137) -/

theorem wantsCharge_iff : wantsCharge d = true ↔ d.battery < 100 ∧ d.charging = false ∧ d.state ≠ .faulty := by
  simp [wantsCharge, and_assoc]

/-- A charge queue once a receiver has its place in it (R137): last out of it, and then at its place if it belongs
there. -/
def queueWith (s : State) (r : RecNo) (e : Rack) : List RecNo :=
  if e.online && s.receivers[r].data.any wantsCharge then
    insertBefore (chargeBefore s) r (e.chargeQueue.filter fun x => x ≠ r)
  else e.chargeQueue.filter fun x => x ≠ r

theorem chargeSettle_eq_modRack (g : PortNo) (r : RecNo) (s : State) :
    chargeSettle g r s = s.modRack g fun e => { e with chargeQueue := queueWith s r e } := by
  have hleave : chargeLeave g r s =
      s.modRack g fun e => { e with chargeQueue := e.chargeQueue.filter fun x => x ≠ r } := by
    unfold chargeLeave
    simp only [filter_bne_eq]
  have hkept : ∀ f : Rack → Rack, (s.modRack g f).receivers = s.receivers := fun _ => rfl
  unfold chargeSettle
  rw [hleave]
  dsimp only
  rw [hkept, modRack_racks_self]
  unfold queueWith
  cases s.receivers[r].data with
  | none => simp
  | some d =>
    by_cases hw : (s.racks[g].online && wantsCharge d) = true
    · simp only [Option.any_some, hw, if_true, modRack_modRack]
      simp only [State.modRack, hw, if_true]
      rfl
    · simp only [Option.any_some, if_neg hw, State.modRack]

/-- The queue alone is changed. -/
theorem chargeSettle_racks (g : PortNo) (r : RecNo) (s : State) : (chargeSettle g r s).racks[g] =
    { s.racks[g] with chargeQueue := queueWith s r s.racks[g] } := by
  rw [chargeSettle_eq_modRack, modRack_racks_self]

theorem chargeSettle_pool (g : PortNo) (r : RecNo) (s : State) : (chargeSettle g r s).pool = s.pool := by
  rw [chargeSettle_eq_modRack]
  rfl

theorem chargeSettle_receivers (g : PortNo) (r : RecNo) (s : State) :
    (chargeSettle g r s).receivers = s.receivers := by
  rw [chargeSettle_eq_modRack]
  rfl

theorem chargeSettle_eq (g : PortNo) (r : RecNo) (s : State) : chargeSettle g r s = { s with
    racks := s.racks.set g { s.racks[g] with chargeQueue := (chargeSettle g r s).racks[g].chargeQueue } } := by
  rw [chargeSettle_racks, chargeSettle_eq_modRack]
  rfl

/-- A receiver takes its place in the charge queue, or leaves it (R137). -/
theorem settledInQueue_chargeSettle (hd : s.receivers[r].data = some d) (hp : d.place ≠ none)
    (hq : ∀ y ∈ s.racks[g].chargeQueue, Docked s y) :
    SettledInQueue (chargeSettle g r s) g r d s.racks[g].chargeQueue := by
  have horder : ChargeOrder (chargeSettle g r s) = ChargeOrder s := by rw [chargeSettle_eq_modRack]; rfl
  have honline : (chargeSettle g r s).racks[g].online = s.racks[g].online := by rw [chargeSettle_racks]
  have hqueue : (chargeSettle g r s).racks[g].chargeQueue = queueWith s r s.racks[g] := by rw [chargeSettle_racks]
  rw [SettledInQueue, horder, honline, hqueue, queueWith, hd, Option.any_some]
  refine ⟨fun ⟨hon, hw⟩ => ?_, fun hno => ?_⟩
  · rw [if_pos (Bool.and_eq_true_iff.mpr ⟨hon, wantsCharge_iff.mpr hw⟩)]
    exact putAt_insertBefore fun y hy => chargeBefore_iff hd hp (hq y (List.mem_of_mem_filter hy))
  · refine if_neg fun h => ?_
    obtain ⟨hon, hw⟩ := Bool.and_eq_true_iff.mp h
    obtain ⟨hlow, hfree, hst⟩ := wantsCharge_iff.mp hw
    rcases hno with hoff | hfull | hcharging | hfaulty
    · exact Bool.false_ne_true (hoff.symm.trans hon)
    · omega
    · exact Bool.false_ne_true (hfree.symm.trans hcharging)
    · exact hst hfaulty

/-! ### The ready pool (R118) -/

theorem poolOrder_congr (h : t.receivers = s.receivers) : PoolOrder t = PoolOrder s := by
  funext x y
  rw [PoolOrder, PoolOrder, h]

theorem poolMove_eq (r : RecNo) (s : State) : poolMove r s = s.withPool (poolMove r s).pool := by
  unfold poolMove
  split <;> rfl

/-- A member moves to its place, and no one else enters (R118). -/
theorem poolMove_pool (hd : s.receivers[r].data = some d) (hp : d.place ≠ none) (hpool : ∀ x ∈ s.pool, Docked s x) :
    (r ∈ s.pool → PutAt (PoolOrder s) r (s.pool.filter (· ≠ r)) (poolMove r s).pool) ∧
      (r ∉ s.pool → (poolMove r s).pool = s.pool) := by
  refine ⟨fun hr => ?_, fun hr => ?_⟩
  · rw [poolMove, if_pos (List.contains_iff_mem.mpr hr), ← filter_bne_eq]
    exact putAt_poolInsert (s := poolLeave r s) hd hp fun x hx => hpool x (List.mem_of_mem_filter hx)
  · rw [poolMove, if_neg (mt List.contains_iff_mem.mp hr)]

theorem enterPool_of_place (hd : s.receivers[r].data = some d) (hp : d.place = some (g, k)) :
    enterPool r s = if s.racks[g].online then runSelection (poolInsert r s) else s := by
  have hplace : placeOf s r = some (g, k) := by rw [placeOf_eq, hd]; exact hp
  unfold enterPool
  rw [hplace]

theorem enterPool_of_no_orders (hd : s.receivers[r].data = some d) (hp : d.place = some (g, k))
    (ho : s.outfits = []) :
    enterPool r s = s.withPool (if s.racks[g].online then (poolInsert r s).pool else s.pool) := by
  rw [enterPool_of_place hd hp]
  split
  · rw [runSelection_of_no_orders (by exact ho)]
    rfl
  · rfl

theorem enterPool_withPool (hd : s.receivers[r].data = some d) (hp : d.place = some (g, k)) (ho : s.outfits = []) :
    enterPool r s = s.withPool (enterPool r s).pool := by
  rw [enterPool_of_no_orders hd hp ho]
  rfl

/-- A receiver enters the pool of an online rack at its place, in a hub without outfit orders (R118). -/
theorem enteredPool_enterPool (hd : s.receivers[r].data = some d) (hp : d.place = some (g, k))
    (ho : s.outfits = []) (hpool : ∀ x ∈ s.pool, Docked s x) :
    EnteredPool s g r s.pool (enterPool r s).pool := by
  rw [enterPool_of_no_orders hd hp ho]
  refine ⟨fun hon => ?_, fun hoff => ?_⟩
  · show PutAt _ _ _ (if _ then _ else _)
    rw [if_pos hon]
    exact putAt_poolInsert hd (by rw [hp]; exact Option.some_ne_none _) hpool
  · exact if_neg (Bool.eq_false_iff.mp hoff)

theorem EnteredPool.congr {l l' : List RecNo} (h : EnteredPool s g r l l') (hrec : t.receivers = s.receivers)
    (hon : t.racks[g].online = s.racks[g].online) : EnteredPool t g r l l' := by
  rwa [EnteredPool, hon, poolOrder_congr hrec]

/-- A receiver that enters the pool may be selected at once. -/
theorem enterPool_data (hd : s.receivers[r].data = some d) : (enterPool r s).receivers[r].data = some d ∨
    ∃ o, (enterPool r s).receivers[r].data = some (d.selectedFor o) := by
  unfold enterPool
  split
  · exact .inl hd
  · split
    · have hinserted : (poolInsert r s).receivers[r].data = some d := hd
      rcases runSelection_receivers (poolInsert r s) r with h | ⟨-, o, -, h⟩
      · exact .inl (by rw [h, hinserted])
      · exact .inr ⟨o, by rw [h, hinserted]; rfl⟩
    · exact .inl hd

theorem enterPool_racks (r : RecNo) (s : State) (g : PortNo) : (enterPool r s).racks[g] = { s.racks[g] with
    keyQueue := (enterPool r s).racks[g].keyQueue, slots := (enterPool r s).racks[g].slots } := by
  unfold enterPool
  split
  · rfl
  · split
    · exact runSelection_racks (poolInsert r s) g
    · rfl

theorem Granted.pool (hg : Granted g s t) : t.pool = s.pool := by rw [hg.eq]

theorem Granted.data (hg : Granted g s t) (hd : s.receivers[r].data = some d) :
    ∃ c, t.receivers[r].data = some { d with charging := c } := by
  rcases hg.receivers r with h | ⟨-, h⟩
  · exact ⟨d.charging, by rw [h, hd]⟩
  · exact ⟨true, by rw [h, hd]; rfl⟩

end Sys2Proof.Machine
end

section
/-! Battery and charge reports (R139). -/

namespace Sys2Proof.Machine

open Laws

variable {s t w : State} {g : PortNo} {k : RackSlot} {r y : RecNo} {d e : ReceiverData} {level : Nat}

/-! ### BATTERY and CHARGE_DONE by the receiver in the slot -/

theorem batteryEffect_of_faulty (hd : s.receivers[r].data = some d) (hst : d.state = .faulty) (g : PortNo) :
    batteryEffect g r s = s := by
  unfold batteryEffect
  rw [hd]
  exact if_pos hst

theorem batteryEffect_of_ready (hd : s.receivers[r].data = some d)
    (hr : d.state = .dockedCharging ∧ s.limits.readyThreshold ≤ d.battery) (g : PortNo) : batteryEffect g r s =
      issueGrants g (chargeSettle g r (enterPool r
        (s.record r ⟨some { d with state := .dockedReady }, s.receivers[r].generation + 1⟩))) := by
  unfold batteryEffect
  rw [hd]
  simp only [hr.1, hr.2, and_self, if_true, changeReceiver_eq_record hd]
  rfl

theorem batteryEffect_of_not_ready (hd : s.receivers[r].data = some d) (hf : d.state ≠ .faulty)
    (hr : ¬ (d.state = .dockedCharging ∧ s.limits.readyThreshold ≤ d.battery)) (g : PortNo) :
    batteryEffect g r s = issueGrants g (chargeSettle g r (poolMove r s)) := by
  unfold batteryEffect
  rw [hd]
  simp only [if_neg hf, if_neg hr]

/-- The receiver's record with the level of a report. -/
def leveled (r : RecNo) (d : ReceiverData) (level : Nat) (s : State) : State :=
  s.record r ⟨some { d with battery := min 100 level }, s.receivers[r].generation⟩

theorem leveled_data (s : State) (r : RecNo) (d : ReceiverData) (level : Nat) :
    (leveled r d level s).receivers[r].data = some { d with battery := min 100 level } := by
  rw [leveled, record_self]

theorem leveled_record (s : State) (r : RecNo) (d : ReceiverData) (level : Nat) (x : Receiver) :
    (leveled r d level s).record r x = s.record r x := record_record s r _ x

theorem batteryReport_of_receiver (hin : InSlot s g k r d) (level : Nat) :
    batteryReport g k level s = batteryEffect g r (leveled r d level s) := by
  unfold batteryReport batteryUpdate
  rw [hin.1, leveled, ← noteReceiver_eq_record hin.2 fun d => { d with battery := min 100 level }]

theorem batteryReport_of_other (h : s.racks[g].slots[k].occupant = .empty ∨
    s.racks[g].slots[k].occupant = .unregistered) (level : Nat) : batteryReport g k level s = s := by
  unfold batteryReport
  rcases h with h | h <;> rw [h]

/-- A receiver has neither grant nor place in the charge queue of the rack. -/
def ungranted (g : PortNo) (r : RecNo) (s : State) : State :=
  s.modRack g fun e => { e with grants := e.grants.filter (· ≠ r), chargeQueue := e.chargeQueue.filter (· ≠ r) }

/-- The receiver charged full: its level, no grant, and no place in the charge queue. -/
def charged (g : PortNo) (r : RecNo) (d : ReceiverData) (s : State) : State :=
  (ungranted g r s).record r ⟨some { d with battery := 100, charging := false }, s.receivers[r].generation⟩

theorem charged_data (s : State) (g : PortNo) (r : RecNo) (d : ReceiverData) :
    (charged g r d s).receivers[r].data = some { d with battery := 100, charging := false } := by
  rw [charged, record_self]

theorem ungranted_racks (s : State) (g : PortNo) (r : RecNo) : (ungranted g r s).racks[g] = { s.racks[g] with
    grants := s.racks[g].grants.filter (· ≠ r), chargeQueue := s.racks[g].chargeQueue.filter (· ≠ r) } :=
  modRack_racks_self s g _

theorem not_mem_charged (s : State) (g : PortNo) (r : RecNo) (d : ReceiverData) :
    r ∉ (charged g r d s).racks[g].grants ∧ r ∉ (charged g r d s).racks[g].chargeQueue := by
  rw [show (charged g r d s).racks[g] = _ from ungranted_racks s g r]
  exact ⟨not_mem_filter_ne r _, not_mem_filter_ne r _⟩

theorem charged_record (s : State) (g : PortNo) (r : RecNo) (d : ReceiverData) (x : Receiver) :
    (charged g r d s).record r x = (ungranted g r s).record r x := record_record _ r _ x

theorem chargeLeave_freeGrant (hd : s.receivers[r].data = some d) (g : PortNo) :
    chargeLeave g r (freeGrant g r (s.noteReceiver r fun d => { d with battery := 100 })) = charged g r d s := by
  rw [noteReceiver_eq_record hd fun d => { d with battery := 100 }, charged, ungranted]
  simp only [chargeLeave, freeGrant, State.noteReceiver, State.record, State.modReceiver, State.modRack,
    Fin.getElem_fin, Vector.getElem_set_self, Vector.set_set, Option.map_some, filter_bne_eq]

theorem chargeReport_of_faulty (hin : InSlot s g k r d) (hst : d.state = .faulty) : chargeReport g k s =
    s.modReceiver r fun x => { x with data := some { d with battery := 100 } } := by
  unfold chargeReport chargeFull
  rw [hin.1]
  simp only [hin.2, if_pos hst]
  exact modReceiver_congr (by rw [hin.2]; rfl)

theorem chargeReport_of_charging (hin : InSlot s g k r d) (hst : d.state = .dockedCharging) : chargeReport g k s =
    issueGrants g (enterPool r ((charged g r d s).record r
      ⟨some { d with battery := 100, charging := false, state := .dockedReady }, s.receivers[r].generation + 1⟩)) := by
  have hf : d.state ≠ .faulty := by rw [hst]; exact RecState.noConfusion
  have hgen : (charged g r d s).receivers[r].generation = s.receivers[r].generation := by
    rw [charged, record_self]
  unfold chargeReport chargeFull
  rw [hin.1]
  simp only [hin.2, if_neg hf, if_pos hst, chargeLeave_freeGrant hin.2,
    changeReceiver_eq_record (charged_data s g r d), hgen]

theorem chargeReport_of_not_charging (hin : InSlot s g k r d) (hf : d.state ≠ .faulty)
    (hst : d.state ≠ .dockedCharging) : chargeReport g k s = issueGrants g (poolMove r (charged g r d s)) := by
  unfold chargeReport chargeFull
  rw [hin.1]
  simp only [hin.2, if_neg hf, if_neg hst, chargeLeave_freeGrant hin.2]

theorem chargeReport_of_other (h : s.racks[g].slots[k].occupant = .empty ∨
    s.racks[g].slots[k].occupant = .unregistered) : chargeReport g k s = s := by
  unfold chargeReport
  rcases h with h | h <;> rw [h]

/-! ### What a report leaves of the receiver and of the hub -/

theorem sendKeys_receivers (s : State) : (sendKeys s).receivers = s.receivers := by rw [onlySent_sendKeys s]

/-- Grants and key orders change of a receiver nothing but its charging mark. -/
theorem served_data (hd : t.receivers[r].data = some d) (g : PortNo) :
    ∃ c, (sendKeys (issueGrants g t)).receivers[r].data = some { d with charging := c } := by
  obtain ⟨c, hc⟩ := (granted_issueGrants g t).data hd
  exact ⟨c, by rw [sendKeys_receivers, hc]⟩

theorem served_not_mem (hgrants : r ∉ t.racks[g].grants) (hqueue : r ∉ t.racks[g].chargeQueue) :
    r ∉ (sendKeys (issueGrants g t)).racks[g].grants ∧ r ∉ (sendKeys (issueGrants g t)).racks[g].chargeQueue := by
  have hg := granted_issueGrants g t
  rw [sendKeys_racks, Rack.sent_eq]
  exact ⟨hg.not_mem_grants hqueue hgrants, hg.not_mem_chargeQueue hqueue⟩

/-- A receiver out of the charge queue gets no grant. -/
theorem served_data_of_not_mem (hd : t.receivers[r].data = some d) (hqueue : r ∉ t.racks[g].chargeQueue) :
    (sendKeys (issueGrants g t)).receivers[r].data = some d := by
  have hg := (granted_issueGrants g t).receivers_of_not_mem hqueue
  rw [sendKeys_receivers, hg, hd]

/-- A record written and what service follows. -/
theorem served_frame (hw : t = { s with receivers := t.receivers, racks := t.racks }) (h : Serviced t w) (g : PortNo) :
    FleetFrame s (sendKeys (issueGrants g w)) ∧ (sendKeys (issueGrants g w)).programs = s.programs := by
  have hserved := (h.trans (serviced_issueGrants g w)).trans (serviced_sendKeys _)
  have hframe : FleetFrame s t := by
    refine fleetFrame_of_eq ?_
    rw [hw]
  exact ⟨hframe.trans hserved.fleetFrame, hserved.programs.trans (by rw [hw])⟩

/-- The level is the reported one; one that is charging turns ready at the threshold, or is selected at once. -/
theorem batteryReport_spec (hin : InSlot s g k r d) (hf : d.state ≠ .faulty) (level : Nat) :
    let t := sendKeys (batteryReport g k level s)
    FleetFrame s t ∧ t.programs = s.programs ∧ ∃ e, t.receivers[r].data = some e ∧
      e.battery = min 100 level ∧ e.id = d.id ∧ e.place = d.place ∧ e.dockStamp = d.dockStamp ∧
      (d.state = .dockedCharging ∧ s.limits.readyThreshold ≤ min 100 level →
        e.state = .dockedReady ∨ e.state = .keying) ∧
      (¬ (d.state = .dockedCharging ∧ s.limits.readyThreshold ≤ min 100 level) →
        e.state = d.state ∧ e.keyedProgram = d.keyedProgram) := by
  dsimp only
  have hd := leveled_data s r d level
  rw [batteryReport_of_receiver hin]
  by_cases hr : d.state = .dockedCharging ∧ s.limits.readyThreshold ≤ min 100 level
  · rw [batteryEffect_of_ready hd hr, leveled_record]
    generalize hx : s.record r _ = x
    have hdata : x.receivers[r].data = some { d with battery := min 100 level, state := .dockedReady } := by
      rw [← hx, record_self]
    obtain ⟨hframe, hprog⟩ := served_frame (s := s) (t := x) (by rw [← hx]; rfl)
      ((serviced_enterPool r x).trans (serviced_chargeSettle g r _)) g
    refine ⟨hframe, hprog, ?_⟩
    rcases enterPool_data hdata with hentered | ⟨o, hentered⟩
    all_goals
      rw [← chargeSettle_receivers g r] at hentered
      obtain ⟨c, hc⟩ := served_data hentered g
      refine ⟨_, hc, rfl, rfl, rfl, rfl, fun _ => ?_, fun h => absurd hr h⟩
    · exact .inl rfl
    · exact .inr rfl
  · rw [batteryEffect_of_not_ready hd hf hr]
    obtain ⟨hframe, hprog⟩ := served_frame (s := s) (t := leveled r d level s) rfl
      ((serviced_poolMove r _).trans (serviced_chargeSettle g r _)) g
    have hmoved : (chargeSettle g r (poolMove r (leveled r d level s))).receivers[r].data =
        some { d with battery := min 100 level } := by
      rw [chargeSettle_receivers, poolMove_eq]
      exact hd
    obtain ⟨c, hc⟩ := served_data hmoved g
    exact ⟨hframe, hprog, _, hc, rfl, rfl, rfl, rfl, fun h => absurd h hr, fun _ => ⟨rfl, rfl⟩⟩

/-- A receiver charged full has no grant and no place in the charge queue, and turns ready or is selected. -/
theorem chargeReport_spec (hin : InSlot s g k r d) (hf : d.state ≠ .faulty) :
    let t := sendKeys (chargeReport g k s)
    FleetFrame s t ∧ t.programs = s.programs ∧ r ∉ t.racks[g].grants ∧ r ∉ t.racks[g].chargeQueue ∧
      ∃ e, t.receivers[r].data = some e ∧ e.battery = 100 ∧ e.charging = false ∧ e.id = d.id ∧
        e.place = d.place ∧ e.dockStamp = d.dockStamp ∧
        (d.state = .dockedCharging → e.state = .dockedReady ∨ e.state = .keying) ∧
        (d.state ≠ .dockedCharging → e.state = d.state ∧ e.keyedProgram = d.keyedProgram) := by
  dsimp only
  obtain ⟨hgrants, hqueue⟩ := not_mem_charged s g r d
  by_cases hst : d.state = .dockedCharging
  · rw [chargeReport_of_charging hin hst]
    generalize hx : (charged g r d s).record r _ = x
    have hdata : x.receivers[r].data =
        some { d with battery := 100, charging := false, state := .dockedReady } := by rw [← hx, record_self]
    have hracks : x.racks = (charged g r d s).racks := by rw [← hx]; rfl
    rw [← hracks] at hgrants hqueue
    obtain ⟨hframe, hprog⟩ := served_frame (s := s) (t := x) (by rw [← hx]; rfl) (serviced_enterPool r x) g
    have hgrants' : r ∉ (enterPool r x).racks[g].grants := by rwa [enterPool_racks]
    have hqueue' : r ∉ (enterPool r x).racks[g].chargeQueue := by rwa [enterPool_racks]
    obtain ⟨hng, hnq⟩ := served_not_mem hgrants' hqueue'
    refine ⟨hframe, hprog, hng, hnq, ?_⟩
    rcases enterPool_data hdata with hentered | ⟨o, hentered⟩
    all_goals refine ⟨_, served_data_of_not_mem hentered hqueue', rfl, rfl, rfl, rfl, rfl, fun _ => ?_,
      fun h => absurd hst h⟩
    · exact .inl rfl
    · exact .inr rfl
  · rw [chargeReport_of_not_charging hin hf hst]
    obtain ⟨hframe, hprog⟩ := served_frame (s := s) (t := charged g r d s) rfl (serviced_poolMove r _) g
    have hmoved : (poolMove r (charged g r d s)).receivers[r].data =
        some { d with battery := 100, charging := false } := by
      rw [poolMove_eq]
      exact charged_data s g r d
    have hracks : (poolMove r (charged g r d s)).racks = (charged g r d s).racks := by rw [poolMove_eq]; rfl
    rw [← hracks] at hgrants hqueue
    obtain ⟨hng, hnq⟩ := served_not_mem hgrants hqueue
    exact ⟨hframe, hprog, hng, hnq, _, served_data_of_not_mem hmoved hqueue, rfl, rfl, rfl, rfl, rfl,
      fun h => absurd h hst, fun _ => ⟨rfl, rfl⟩⟩

/-! ### The whole outcome, without outfit orders -/

/-- A record written that keeps place and dock stamp leaves docked what is docked. -/
theorem docked_rewritten (hd : s.receivers[r].data = some d) (hp : d.place ≠ none) (hplace : e.place = d.place)
    (hdock : e.dockStamp = d.dockStamp) (hy : Docked s y) (n : BitVec 16) : Docked (s.record r ⟨some e, n⟩) y := by
  refine docked_record (hplace ▸ hp) (fun ⟨d', hd', _, hstamp⟩ => ?_) hy
  obtain rfl : d = d' := Option.some.inj (hd.symm.trans hd')
  rwa [hdock]

/-- A receiver's record written, its place in the pool changed, and then its place in the charge queue. -/
theorem settled_record {x : Receiver} (hx : x.data = some e) (hp : e.place ≠ none)
    (hv : t = (s.record r x).withPool t.pool) (hq : ∀ y ∈ s.racks[g].chargeQueue, Docked (s.record r x) y)
    (hw : w = chargeSettle g r t) :
    w = { s with
      receivers := s.receivers.set r ⟨some e, w.receivers[r].generation⟩, pool := w.pool
      racks := s.racks.set g { s.racks[g] with chargeQueue := w.racks[g].chargeQueue } } ∧
    w.receivers = (s.record r x).receivers ∧ w.receivers[r].generation = x.generation ∧ w.pool = t.pool ∧
    SettledInQueue w g r e s.racks[g].chargeQueue := by
  have hrecords : t.receivers = (s.record r x).receivers := by rw [hv]; rfl
  have hracks : t.racks = s.racks := by rw [hv]; rfl
  have hself : t.receivers[r] = x := by rw [hrecords, record_self]
  have hdata : t.receivers[r].data = some e := by rw [hself, hx]
  have hreceivers : w.receivers = (s.record r x).receivers := by rw [hw, chargeSettle_receivers, hrecords]
  have hgen : w.receivers[r].generation = x.generation := by rw [hreceivers, record_self]
  have hqueue : w = { t with racks := t.racks.set g { t.racks[g] with chargeQueue := w.racks[g].chargeQueue } } := by
    rw [hw]
    exact chargeSettle_eq g r t
  have hpool : w.pool = t.pool := by rw [hqueue]
  refine ⟨?_, hreceivers, hgen, hpool, ?_⟩
  · have hrecord : (⟨some e, x.generation⟩ : Receiver) = x := by rw [← hx]
    rw [hgen, hpool, hrecord]
    refine hqueue.trans ?_
    rw [hracks, hv]
    rfl
  · rw [hw, ← hracks]
    refine settledInQueue_chargeSettle hdata hp fun y hy => ?_
    obtain ⟨f, hf, hdock⟩ := hq y (by rwa [hracks] at hy)
    exact ⟨f, by rw [hrecords, hf], hdock⟩

/-- BATTERY, without outfit orders: the receiver takes its places, and grants are issued. -/
theorem batteryReport_settles (hin : InSlot s g k r d) (hf : d.state ≠ .faulty) (hp : d.place = some (g, k))
    (ho : s.outfits = []) (hdocked : ∀ x ∈ s.pool ++ s.racks[g].chargeQueue, Docked s x) (level : Nat) :
    let ready : Prop := d.state = .dockedCharging ∧ s.limits.readyThreshold ≤ min 100 level
    ∃ w e, batteryReport g k level s = issueGrants g w ∧ e = { d with battery := min 100 level, state := e.state } ∧
      w = { s with
            receivers := s.receivers.set r ⟨some e, w.receivers[r].generation⟩, pool := w.pool
            racks := s.racks.set g { s.racks[g] with chargeQueue := w.racks[g].chargeQueue } } ∧
      SettledInQueue w g r e s.racks[g].chargeQueue ∧
      (ready → e.state = .dockedReady ∧ w.receivers[r].generation = s.receivers[r].generation + 1 ∧
        EnteredPool w g r s.pool w.pool) ∧
      (¬ ready → e.state = d.state ∧ w.receivers[r].generation = s.receivers[r].generation ∧
        (r ∈ s.pool → PutAt (PoolOrder w) r (s.pool.filter (· ≠ r)) w.pool) ∧ (r ∉ s.pool → w.pool = s.pool)) := by
  dsimp only
  obtain ⟨hpool, hqueue⟩ := List.forall_mem_append.mp hdocked
  have hplace : d.place ≠ none := by rw [hp]; exact Option.some_ne_none _
  have hd := leveled_data s r d level
  rw [batteryReport_of_receiver hin]
  by_cases hr : d.state = .dockedCharging ∧ s.limits.readyThreshold ≤ min 100 level
  · rw [batteryEffect_of_ready hd hr, leveled_record]
    obtain ⟨x, hx⟩ : ∃ x : Receiver, x = ⟨some { d with battery := min 100 level, state := .dockedReady },
      (leveled r d level s).receivers[r].generation + 1⟩ := ⟨_, rfl⟩
    have hgen : x.generation = s.receivers[r].generation + 1 := by rw [hx, leveled, record_self]
    have hdata : (s.record r x).receivers[r].data =
        some { d with battery := min 100 level, state := .dockedReady } := by
      rw [record_self, hx]
    have hkept {y : RecNo} (hy : Docked s y) : Docked (s.record r x) y := by
      rw [hx]
      exact docked_rewritten hin.2 hplace (by exact rfl) (by exact rfl) hy _
    have hentered := enteredPool_enterPool hdata hp ho fun y hy => hkept (hpool y hy)
    rw [← hx]
    obtain ⟨hw, hreceivers, hwgen, hwpool, hsettled⟩ := settled_record (t := enterPool r (s.record r x))
      (e := { d with battery := min 100 level, state := .dockedReady }) (by rw [hx]) hplace
      (enterPool_withPool hdata hp ho) (fun y hy => hkept (hqueue y hy)) rfl
    have hon : (chargeSettle g r (enterPool r (s.record r x))).racks[g].online = s.racks[g].online :=
      ((serviced_enterPool r _).trans (serviced_chargeSettle g r _)).racks g |>.online
    refine ⟨_, { d with battery := min 100 level, state := .dockedReady }, rfl, rfl, hw, hsettled,
      fun _ => ⟨rfl, hwgen.trans hgen, ?_⟩, fun h => absurd hr h⟩
    rw [hwpool]
    exact hentered.congr hreceivers hon
  · rw [batteryEffect_of_not_ready hd hf hr]
    obtain ⟨x, hx⟩ : ∃ x : Receiver, x = ⟨some { d with battery := min 100 level }, s.receivers[r].generation⟩ :=
      ⟨_, rfl⟩
    have hleveled : leveled r d level s = s.record r x := by rw [hx, leveled]
    have hdata : (s.record r x).receivers[r].data = some { d with battery := min 100 level } := by
      rw [record_self, hx]
    have hkept {y : RecNo} (hy : Docked s y) : Docked (s.record r x) y := by
      rw [hx]
      exact docked_rewritten hin.2 hplace (by exact rfl) (by exact rfl) hy _
    obtain ⟨hmember, hother⟩ := poolMove_pool hdata hplace fun y hy => hkept (hpool y hy)
    rw [hleveled]
    obtain ⟨hw, hreceivers, hwgen, hwpool, hsettled⟩ := settled_record (t := poolMove r (s.record r x))
      (e := { d with battery := min 100 level }) (by rw [hx]) hplace (poolMove_eq r _)
      (fun y hy => hkept (hqueue y hy)) rfl
    refine ⟨_, { d with battery := min 100 level }, rfl, rfl, hw, hsettled, fun h => absurd h hr,
      fun _ => ⟨rfl, hwgen.trans (by rw [hx]), ?_⟩⟩
    rw [hwpool, poolOrder_congr hreceivers]
    exact ⟨hmember, hother⟩

/-- CHARGE_DONE, without outfit orders: the receiver leaves grant and charge queue and takes its place in the pool. -/
theorem chargeReport_settles (hin : InSlot s g k r d) (hf : d.state ≠ .faulty) (hp : d.place = some (g, k))
    (ho : s.outfits = []) (hpool : ∀ x ∈ s.pool, Docked s x) :
    ∃ w e, chargeReport g k s = issueGrants g w ∧ e = { d with battery := 100, charging := false, state := e.state } ∧
      w = { s with
            receivers := s.receivers.set r ⟨some e, w.receivers[r].generation⟩, pool := w.pool
            racks := s.racks.set g { s.racks[g] with
              grants := s.racks[g].grants.filter (· ≠ r), chargeQueue := s.racks[g].chargeQueue.filter (· ≠ r) } } ∧
      (d.state = .dockedCharging → e.state = .dockedReady ∧
        w.receivers[r].generation = s.receivers[r].generation + 1 ∧ EnteredPool w g r s.pool w.pool) ∧
      (d.state ≠ .dockedCharging → e.state = d.state ∧ w.receivers[r].generation = s.receivers[r].generation ∧
        (r ∈ s.pool → PutAt (PoolOrder w) r (s.pool.filter (· ≠ r)) w.pool) ∧ (r ∉ s.pool → w.pool = s.pool)) := by
  have hplace : d.place ≠ none := by rw [hp]; exact Option.some_ne_none _
  by_cases hst : d.state = .dockedCharging
  · rw [chargeReport_of_charging hin hst, charged_record]
    obtain ⟨e, he⟩ : ∃ e, e = { d with battery := 100, charging := false, state := .dockedReady } := ⟨_, rfl⟩
    rw [← he]
    generalize hn : s.receivers[r].generation + 1 = n
    have hdata : ((ungranted g r s).record r ⟨some e, n⟩).receivers[r].data = some e := by rw [record_self]
    have hep : e.place = some (g, k) := by rw [he]; exact hp
    have hentered := enteredPool_enterPool hdata hep ho fun y hy =>
      docked_rewritten (s := ungranted g r s) hin.2 hplace (by rw [he]) (by rw [he]) (hpool y hy) n
    have hw := enterPool_withPool hdata hep ho
    have hreceivers : (enterPool r ((ungranted g r s).record r ⟨some e, n⟩)).receivers =
        ((ungranted g r s).record r ⟨some e, n⟩).receivers := by rw [hw]; rfl
    have hgen : (enterPool r ((ungranted g r s).record r ⟨some e, n⟩)).receivers[r].generation = n := by
      rw [hreceivers, record_self]
    refine ⟨_, e, rfl, by rw [he], ?_, fun _ => ⟨by rw [he], hgen, ?_⟩, fun h => absurd hst h⟩
    · rw [hgen]
      exact hw
    · exact hentered.congr hreceivers ((serviced_enterPool r _).racks g).online
  · rw [chargeReport_of_not_charging hin hf hst, charged]
    obtain ⟨e, he⟩ : ∃ e, e = { d with battery := 100, charging := false } := ⟨_, rfl⟩
    rw [← he]
    generalize hn : s.receivers[r].generation = n
    have hdata : ((ungranted g r s).record r ⟨some e, n⟩).receivers[r].data = some e := by rw [record_self]
    have hep : e.place ≠ none := by rw [he]; exact hplace
    have hmoved := poolMove_pool hdata hep fun y hy =>
      docked_rewritten (s := ungranted g r s) hin.2 hplace (by rw [he]) (by rw [he]) (hpool y hy) n
    have hw := poolMove_eq r ((ungranted g r s).record r ⟨some e, n⟩)
    have hreceivers : (poolMove r ((ungranted g r s).record r ⟨some e, n⟩)).receivers =
        ((ungranted g r s).record r ⟨some e, n⟩).receivers := by rw [hw]; rfl
    have hgen : (poolMove r ((ungranted g r s).record r ⟨some e, n⟩)).receivers[r].generation = n := by
      rw [hreceivers, record_self]
    refine ⟨_, e, rfl, by rw [he], ?_, fun h => absurd h hst, fun _ => ⟨by rw [he], hgen, ?_⟩⟩
    · rw [hgen]
      exact hw
    · rw [poolOrder_congr hreceivers]
      exact hmoved

/-! ### Grants, one by one (R138) -/

theorem issueGrants_of_nothing (hn : s.racks[g].online = false ∨ s.racks[g].grantLimit ≤ s.racks[g].grants.length ∨
    s.racks[g].chargeQueue = []) : issueGrants g s = s :=
  forEach_of_fixed _ fun _ => issueOne_of_nothing hn

/-- The head of the queue is granted, and then the rest is served. -/
theorem issueGrants_of_cons {queue : List RecNo} {h : PortNo} {j : RackSlot} (hq : s.racks[g].chargeQueue = r :: queue)
    (hon : s.racks[g].online = true) (hlim : s.racks[g].grants.length < s.racks[g].grantLimit)
    (hd : s.receivers[r].data = some d) (hp : d.place = some (h, j)) :
    issueGrants g s = issueGrants g (handFrame g (.order (.grant j)) { s with
      racks := s.racks.set g { s.racks[g] with chargeQueue := queue, grants := s.racks[g].grants ++ [r] }
      receivers := s.receivers.set r ⟨some { d with charging := true }, s.receivers[r].generation⟩ }) := by
  have hone : issueOne g s = handFrame g (.order (.grant j)) { s with
      racks := s.racks.set g { s.racks[g] with chargeQueue := queue, grants := s.racks[g].grants ++ [r] }
      receivers := s.receivers.set r ⟨some { d with charging := true }, s.receivers[r].generation⟩ } := by
    rw [issueOne_of_cons hq hon hlim, headGranted, noteReceiver_eq_record (d := d) (by exact hd)]
    unfold chargeFrame
    rw [placeOf_eq, record_self]
    simp only [Option.bind_some, ReceiverData.granted, hp]
    rfl
  have hlength : (issueOne g s).racks[g].chargeQueue.length = queue.length := by
    rw [hone, handFrame_racks]
    simp
  rw [issueGrants, hq, List.length_cons, forEach_range_succ, ← hlength, hone]
  rfl

/-- Settles O51: level, state and frame by what service leaves of a record (`batteryReport_spec`, `chargeReport_spec`);
the places without outfit orders by the insertions of R118 and R137 (`batteryReport_settles`,
`chargeReport_settles`). -/
theorem batteryAndChargeReports : Obligations.BatteryAndChargeReports := by
  unfold Obligations.BatteryAndChargeReports
  intro s g k id level hport hlevel
  have hbattery := exec_battery hport k id level hlevel
  have hcharge := exec_chargeDone hport k id level
  refine ⟨fun r d hin hf => ?_, fun r d hin hf => ?_, fun r d hin hf hp ho hdocked => ⟨?_, ?_⟩,
    issueGrants_of_nothing, fun r queue d h j hq hon hlim hd hp => issueGrants_of_cons hq hon hlim hd hp,
    fun r d hin hst => ⟨?_, ?_⟩, fun hother => ⟨?_, ?_⟩⟩
  · exact ⟨_, hbattery, batteryReport_spec hin hf level⟩
  · exact ⟨_, hcharge, chargeReport_spec hin hf⟩
  · obtain ⟨w, e, hreport, hrest⟩ := batteryReport_settles hin hf hp ho hdocked level
    exact ⟨w, e, by rw [hbattery, hreport], hrest⟩
  · obtain ⟨w, e, hreport, hrest⟩ := chargeReport_settles hin hf hp ho (List.forall_mem_append.mp hdocked).1
    exact ⟨w, e, by rw [hcharge, hreport], hrest⟩
  · rw [hbattery, batteryReport_of_receiver hin, batteryEffect_of_faulty (leveled_data s r d level) hst]
    rfl
  · rw [hcharge, chargeReport_of_faulty hin hst]
  · rw [hbattery, batteryReport_of_other hother]
  · rw [hcharge, chargeReport_of_other hother]

end Sys2Proof.Machine
end

section
/-! A receiver that takes a slot of a rack (R128). -/

namespace Sys2Proof.Machine

open Laws

variable {s t w : State} {g : PortNo} {k : RackSlot} {r y : RecNo} {d e : ReceiverData} {level : Nat} {id : BitVec 24}

/-! ### The receiver in its slot -/

/-- The record of a receiver that docks (R128). -/
def dockedRecord (s : State) (g : PortNo) (k : RackSlot) (id : BitVec 24) (level : Nat) : ReceiverData :=
  { id := id
    state := if s.limits.readyThreshold ≤ min 100 level then .dockedReady else .dockedCharging
    place := some (g, k), dockStamp := some s.clock, battery := min 100 level, charging := false
    keyedProgram := none, outfit := none, issueStamp := none, loanDeadline := none, unconfirmed := false }

/-- The rack with a receiver in a slot. -/
def Rack.holding (k : RackSlot) (r : RecNo) (e : Rack) : Rack :=
  { e with slots := e.slots.set k { e.slots[k] with occupant := .receiver r } }

/-- The hub with a receiver in a slot, before it has its place in the charge queue (R128 steps 1 and 2). -/
def seated (g : PortNo) (k : RackSlot) (r : RecNo) (id : BitVec 24) (level : Nat) (s : State) : State :=
  (s.modRack g (Rack.holding k r)).record r ⟨some (dockedRecord s g k id level), s.receivers[r].generation + 1⟩

/-- The receiver placed: its place in the charge queue, grants, and its place in the pool (R128 steps 3 to 5). -/
def placed (g : PortNo) (k : RackSlot) (r : RecNo) (id : BitVec 24) (level : Nat) (s : State) : State :=
  let t := issueGrants g (chargeSettle g r (seated g k r id level s))
  if s.limits.readyThreshold ≤ min 100 level then enterPool r t else t

theorem placeReceiver_eq (hd : s.receivers[r].data = some d) (g : PortNo) (k : RackSlot) (level : Nat) :
    placeReceiver g k r level s = placed g k r d.id level s := by
  have hstate : byBattery s (min 100 level) = .dockedReady ↔ s.limits.readyThreshold ≤ min 100 level := by
    unfold byBattery
    split
    · next h => exact iff_of_true rfl h
    · next h => exact iff_of_false RecState.noConfusion h
  unfold placeReceiver placed
  dsimp only
  rw [changeReceiver_eq_record (s := s.modSlot g k fun e => { e with occupant := .receiver r }) hd]
  simp only [hstate]
  rfl

/-- What the record held before does not matter. -/
theorem placed_record (g : PortNo) (k : RackSlot) (r : RecNo) (id : BitVec 24) (level : Nat) (s : State)
    (x : Option ReceiverData) :
    placed g k r id level (s.record r ⟨x, s.receivers[r].generation⟩) = placed g k r id level s := by
  have hseated : seated g k r id level (s.record r ⟨x, s.receivers[r].generation⟩) = seated g k r id level s := by
    rw [seated, record_self]
    exact record_record (s.modRack g (Rack.holding k r)) r _ _
  rw [placed, hseated]
  rfl

theorem seated_self (s : State) (g : PortNo) (k : RackSlot) (r : RecNo) (id : BitVec 24) (level : Nat) :
    (seated g k r id level s).receivers[r] =
      ⟨some (dockedRecord s g k id level), s.receivers[r].generation + 1⟩ := record_self _ r _

theorem seated_data (s : State) (g : PortNo) (k : RackSlot) (r : RecNo) (id : BitVec 24) (level : Nat) :
    (seated g k r id level s).receivers[r].data = some (dockedRecord s g k id level) := by rw [seated_self]

theorem seated_ne (hne : r ≠ y) (s : State) (g : PortNo) (k : RackSlot) (id : BitVec 24) (level : Nat) :
    (seated g k r id level s).receivers[y] = s.receivers[y] :=
  modReceiver_ne (s.modRack g (Rack.holding k r)) hne _

theorem seated_racks (s : State) (g : PortNo) (k : RackSlot) (r : RecNo) (id : BitVec 24) (level : Nat) :
    (seated g k r id level s).racks[g] = s.racks[g].holding k r := modRack_racks_self s g _

theorem fleetFrame_seated (s : State) (g : PortNo) (k : RackSlot) (r : RecNo) (id : BitVec 24) (level : Nat) :
    FleetFrame s (seated g k r id level s) := fleetFrame_of_eq rfl

theorem holding_occupant (k : RackSlot) (r : RecNo) (e : Rack) : (e.holding k r).slots[k].occupant = .receiver r := by
  simp [Rack.holding]

/-- The receiver placed, but for the pool. -/
def charging (g : PortNo) (k : RackSlot) (r : RecNo) (id : BitVec 24) (level : Nat) (s : State) : State :=
  issueGrants g (chargeSettle g r (seated g k r id level s))

theorem placed_of_ready (h : s.limits.readyThreshold ≤ min 100 level) (g : PortNo) (k : RackSlot) (r : RecNo)
    (id : BitVec 24) : placed g k r id level s = enterPool r (charging g k r id level s) := if_pos h

theorem placed_of_not_ready (h : min 100 level < s.limits.readyThreshold) (g : PortNo) (k : RackSlot) (r : RecNo)
    (id : BitVec 24) : placed g k r id level s = charging g k r id level s := if_neg (Nat.not_le.mpr h)

theorem serviced_charging (g : PortNo) (k : RackSlot) (r : RecNo) (id : BitVec 24) (level : Nat) (s : State) :
    Serviced (seated g k r id level s) (charging g k r id level s) :=
  (serviced_chargeSettle g r _).trans (serviced_issueGrants g _)

theorem serviced_placed (g : PortNo) (k : RackSlot) (r : RecNo) (id : BitVec 24) (level : Nat) (s : State) :
    Serviced (seated g k r id level s) (placed g k r id level s) :=
  ite_keeps (P := Serviced _) ((serviced_charging g k r id level s).trans (serviced_enterPool r _))
    (serviced_charging g k r id level s)

/-! ### What stands after the event -/

theorem placed_frame (g : PortNo) (k : RackSlot) (r : RecNo) (id : BitVec 24) (level : Nat) (s : State) :
    let t := sendKeys (placed g k r id level s)
    FleetFrame s t ∧ t.programs = s.programs ∧ t.racks[g].slots[k].occupant = .receiver r := by
  have hserved := (serviced_placed g k r id level s).trans (serviced_sendKeys _)
  refine ⟨(fleetFrame_seated s g k r id level).trans hserved.fleetFrame, hserved.programs, ?_⟩
  rw [(hserved.racks g).2 k, seated_racks, holding_occupant]

/-- No other receiver is moved. -/
theorem placed_others (hne : y ≠ r) (g : PortNo) (k : RackSlot) (id : BitVec 24) (level : Nat) (s : State) :
    (sendKeys (placed g k r id level s)).receivers[y].data.map (fun e => (e.id, e.place)) =
      s.receivers[y].data.map fun e => (e.id, e.place) := by
  have hst := ((serviced_placed g k r id level s).trans (serviced_sendKeys _)).standing y
  rw [seated_ne hne.symm] at hst
  have hpair (o : Option ReceiverData) : o.map (fun e => (e.id, e.place)) =
      (o.map ReceiverData.standing).map fun x => (x.1, x.2.1) := by rw [Option.map_map]; rfl
  rw [hpair, hpair, hst]

theorem charging_data (g : PortNo) (k : RackSlot) (r : RecNo) (id : BitVec 24) (level : Nat) (s : State) :
    ∃ c, (charging g k r id level s).receivers[r].data = some { dockedRecord s g k id level with charging := c } :=
  (granted_issueGrants g _).data (by rw [chargeSettle_receivers, seated_data])

theorem placed_data_of_not_ready (h : min 100 level < s.limits.readyThreshold) (g : PortNo) (k : RackSlot) (r : RecNo)
    (id : BitVec 24) : ∃ c, (sendKeys (placed g k r id level s)).receivers[r].data =
      some { dockedRecord s g k id level with charging := c, state := .dockedCharging } := by
  obtain ⟨c, hc⟩ := charging_data g k r id level s
  refine ⟨c, ?_⟩
  rw [sendKeys_receivers, placed_of_not_ready h, hc, dockedRecord, if_neg (Nat.not_le.mpr h)]

theorem placed_data_of_ready (h : s.limits.readyThreshold ≤ min 100 level) (g : PortNo) (k : RackSlot) (r : RecNo)
    (id : BitVec 24) : ∃ e, (sendKeys (placed g k r id level s)).receivers[r].data = some e ∧
      e.standing = (dockedRecord s g k id level).standing ∧ (e.state = .dockedReady ∨ e.state = .keying) := by
  obtain ⟨c, hc⟩ := charging_data g k r id level s
  have hstate : (dockedRecord s g k id level).state = .dockedReady := if_pos h
  rw [sendKeys_receivers, placed_of_ready h]
  rcases enterPool_data hc with he | ⟨o, he⟩
  · exact ⟨_, he, rfl, .inl hstate⟩
  · exact ⟨_, he, rfl, .inr rfl⟩

/-- Below the ready threshold no key order is placed. -/
theorem placed_racks_of_not_ready (h : min 100 level < s.limits.readyThreshold) (g : PortNo) (k : RackSlot) (r : RecNo)
    (id : BitVec 24) :
    (sendKeys (placed g k r id level s)).racks[g].slots[k].unkeyOwed = s.racks[g].slots[k].unkeyOwed ∧
      (sendKeys (placed g k r id level s)).racks[g].keyQueue = s.racks[g].keyQueue := by
  obtain ⟨n, hn⟩ := (granted_issueGrants g (chargeSettle g r (seated g k r id level s))).rack
  rw [sendKeys_racks, Rack.sent_eq, placed_of_not_ready h, charging, hn,
    chargeSettle_racks, seated_racks, Rack.holding]
  exact ⟨by simp, rfl⟩

/-! ### The places without outfit orders -/

theorem SameStanding.poolOrder_eq (h : SameStanding s t) : PoolOrder t = PoolOrder s := by
  funext x y
  exact propext ⟨h.symm.poolOrder, h.poolOrder⟩

/-- A receiver takes its slot: record, charge queue, grants and pool (R128, R137, R138, R118). -/
theorem tookSlot_placed (ho : s.outfits = []) (hdocked : ∀ x ∈ s.pool ++ s.racks[g].chargeQueue, Docked s x)
    (k : RackSlot) (r : RecNo) (id : BitVec 24) (level : Nat) :
    TookSlot s (placed g k r id level s) g k r id level := by
  obtain ⟨hpool, hqueue⟩ := List.forall_mem_append.mp hdocked
  have hd := seated_data s g k r id level
  have hplace : (dockedRecord s g k id level).place = some (g, k) := rfl
  have hsome : (dockedRecord s g k id level).place ≠ none := Option.some_ne_none _
  have hkept {y : RecNo} (hy : Docked s y) : Docked (seated g k r id level s) y :=
    docked_record (s := s.modRack g (Rack.holding k r)) hsome (fun _ => Option.some_ne_none _) hy
  have hsettled := settledInQueue_chargeSettle (g := g) hd hsome fun y hy => hkept (hqueue y (by
    rwa [seated_racks] at hy))
  have hw := chargeSettle_eq g r (seated g k r id level s)
  rw [seated_racks] at hsettled hw
  have hserved := serviced_charging g k r id level s
  refine ⟨chargeSettle g r (seated g k r id level s), ?_, hsettled, ?_⟩
  · refine hw.trans ?_
    rw [show (seated g k r id level s).racks = s.racks.set g (s.racks[g].holding k r) from rfl, Vector.set_set]
    rfl
  · have hpooled : (charging g k r id level s).pool = s.pool :=
      (granted_issueGrants g _).pool.trans (chargeSettle_pool g r _)
    by_cases h : s.limits.readyThreshold ≤ min 100 level
    · obtain ⟨c, hc⟩ := charging_data g k r id level s
      have hone := hserved.orders_nil ho
      have hentered := enteredPool_enterPool hc hplace hone fun y hy => hserved.standing.docked (hkept (hpool y (by
        rwa [hpooled] at hy)))
      rw [hpooled] at hentered
      rw [placed_of_ready h]
      refine ⟨_, enterPool_withPool hc hplace hone, fun _ => ?_, fun hno => absurd hno (by
        rw [if_pos h]; exact RecState.noConfusion)⟩
      have hgranted := granted_issueGrants g (chargeSettle g r (seated g k r id level s))
      rw [EnteredPool, ← (hgranted.rackKept g).online, ← hgranted.standing.poolOrder_eq]
      exact hentered
    · rw [placed_of_not_ready (Nat.lt_of_not_le h)]
      refine ⟨s.pool, ?_, fun hno => absurd hno (by rw [if_neg h]; exact RecState.noConfusion), fun _ => rfl⟩
      rw [← hpooled]
      rfl

end Sys2Proof.Machine
end

section
/-! DOCK (R127 to R129). -/

namespace Sys2Proof.Machine

open Laws

variable {s t : State} {g h : PortNo} {k j : RackSlot} {r q : RecNo} {d : ReceiverData} {level : Nat} {id : BitVec 24}
  {p : ProgNo}

/-! ### Looking up -/

theorem recordOf_of_first (hd : s.receivers[r].data = some d)
    (hfirst : ∀ q : RecNo, q < r → s.receivers[q].data.map (·.id) ≠ some d.id) : recordOf s d.id = some r :=
  find?_fins_eq_some (by rw [hd]; exact beq_self_eq_true _) fun q hq => beq_eq_false_iff_ne.mpr (hfirst q hq)

theorem recordOf_of_unknown (h : ∀ q : RecNo, s.receivers[q].data.map (·.id) ≠ some id) : recordOf s id = none :=
  List.find?_eq_none.mpr fun q _ => by simpa using h q

theorem freeRecord_of_first (hd : s.receivers[r].data = none)
    (hfirst : ∀ q : RecNo, q < r → s.receivers[q].data ≠ none) : freeRecord s = some r :=
  find?_fins_eq_some (by rw [hd]; rfl) fun q hq => by simpa [Option.isSome_iff_ne_none] using hfirst q hq

theorem freeRecord_of_full (h : ∀ q : RecNo, s.receivers[q].data ≠ none) : freeRecord s = none :=
  List.find?_eq_none.mpr fun q _ => by simpa [Option.isSome_iff_ne_none] using h q

theorem validReceiverId_iff : validReceiverId id = true ↔ id ≠ 0 ∧ id ≠ 0xFFFFFF := by
  simp [validReceiverId]

/-! ### The cases of R127 -/

theorem dockReport_of_empty (hk : s.racks[g].slots[k].occupant = .empty) (id : BitVec 24) (level : Nat) :
    dockReport g k id level s = dockFound g k id level (undockElsewhere id s) := by
  unfold dockReport alreadyThere undockSlot
  simp only [hk]

/-- What else stands in the slot is undocked first (R127 case 2). -/
theorem dockReport_of_other (hk : s.racks[g].slots[k].occupant = .unregistered ∨
    ∃ q, s.racks[g].slots[k].occupant = .receiver q ∧ s.receivers[q].data.map (·.id) ≠ some id) (level : Nat) :
    dockReport g k id level s = dockFound g k id level (undockElsewhere id (undockSlot g k s)) := by
  have hnone : alreadyThere s g k id = none := by
    unfold alreadyThere
    rcases hk with hk | ⟨q, hk, hid⟩
    · rw [hk]
    · rw [hk]
      exact if_neg hid
  unfold dockReport
  rw [hnone]

/-- What is recorded elsewhere is undocked there first (R127 case 3). -/
theorem undockElsewhere_of_place (hd : s.receivers[r].data = some d)
    (hfirst : ∀ q : RecNo, q < r → s.receivers[q].data.map (·.id) ≠ some d.id) (hp : d.place = some (h, j)) :
    undockElsewhere d.id s = undockReceiver h j r s := by
  unfold undockElsewhere
  rw [recordOf_of_first hd hfirst]
  simp only [placeOf_eq, hd, Option.bind_some, hp]

theorem undockElsewhere_of_outside (hd : s.receivers[r].data = some d)
    (hfirst : ∀ q : RecNo, q < r → s.receivers[q].data.map (·.id) ≠ some d.id) (hp : d.place = none) :
    undockElsewhere d.id s = s := by
  unfold undockElsewhere
  rw [recordOf_of_first hd hfirst]
  simp only [placeOf_eq, hd, Option.bind_some, hp]

theorem undockElsewhere_of_unknown (hid : ∀ q : RecNo, s.receivers[q].data.map (·.id) ≠ some id) :
    undockElsewhere id s = s := by
  unfold undockElsewhere
  rw [recordOf_of_unknown hid]

/-! ### An unknown receiver (R129) -/

section
variable (hk : s.racks[g].slots[k].occupant = .empty) (hid : ∀ q : RecNo, s.receivers[q].data.map (·.id) ≠ some id)
include hk hid

theorem dockReport_of_unknown (level : Nat) : dockReport g k id level s = dockUnknown g k id level s := by
  rw [dockReport_of_empty hk, undockElsewhere_of_unknown hid]
  unfold dockFound
  rw [recordOf_of_unknown hid]

theorem dockReport_of_new (hv : id ≠ 0 ∧ id ≠ 0xFFFFFF) (hd : s.receivers[r].data = none)
    (hfirst : ∀ q : RecNo, q < r → s.receivers[q].data ≠ none) (level : Nat) :
    dockReport g k id level s = placed g k r id level s := by
  rw [dockReport_of_unknown hk hid]
  have hrecord (d : ReceiverData) : s.modReceiver r (fun x => { x with data := some d }) =
      s.record r ⟨some d, s.receivers[r].generation⟩ := modReceiver_congr rfl
  have hplaced (d : ReceiverData) : placeReceiver g k r level (s.record r ⟨some d, s.receivers[r].generation⟩) =
      placed g k r d.id level s := by
    rw [placeReceiver_eq (d := d) (by rw [record_self]), placed_record]
  unfold dockUnknown
  dsimp only
  rw [if_pos (validReceiverId_iff.mpr hv), freeRecord_of_first hd hfirst]
  dsimp only
  rw [hrecord, hplaced]

theorem dockReport_of_invalid (hv : id = 0 ∨ id = 0xFFFFFF) (level : Nat) :
    dockReport g k id level s = s.modSlot g k fun e => { e with occupant := .unregistered } := by
  have hno : ¬ validReceiverId id = true := fun h => by
    obtain ⟨h0, h1⟩ := validReceiverId_iff.mp h
    exact hv.elim h0 h1
  rw [dockReport_of_unknown hk hid]
  exact if_neg hno

theorem dockReport_of_full (hv : id ≠ 0 ∧ id ≠ 0xFFFFFF) (hfull : ∀ q : RecNo, s.receivers[q].data ≠ none)
    (level : Nat) : dockReport g k id level s =
      queueNotice .fleetFull (some (BitVec.ofNat 16 g.val)) (some (BitVec.ofNat 16 k.val)) (id.setWidth 16)
        (s.modSlot g k fun e => { e with occupant := .unregistered }) := by
  rw [dockReport_of_unknown hk hid]
  unfold dockUnknown
  dsimp only
  rw [if_pos (validReceiverId_iff.mpr hv), freeRecord_of_full hfull]
  rfl

end

/-- Settles O48: the lookups find no record (`dockReport_of_new`, `…_invalid`, `…_full`), and the receiver that is
placed stands where R118, R128 and R137 put it (`placed_frame`, `tookSlot_placed`). -/
theorem dockOfAnUnknownReceiver : Obligations.DockOfAnUnknownReceiver := by
  unfold Obligations.DockOfAnUnknownReceiver
  intro s g k id level hport hk hlevel hid
  have hdock := exec_dock hport k id level hlevel
  refine ⟨fun r h0 h1 hd hfirst => ?_, fun hv => ?_, fun h0 h1 hfull => ?_⟩
  · rw [dockReport_of_new hk hid ⟨h0, h1⟩ hd hfirst] at hdock
    obtain ⟨hframe, -, hslot⟩ := placed_frame g k r id level s
    refine ⟨_, hdock, hslot, hframe, fun q hq => placed_others hq g k id level s, ?_⟩
    have htook (ho : s.outfits = []) (hdocked : ∀ x ∈ s.pool ++ s.racks[g].chargeQueue, Docked s x) :
        ∃ u, TookSlot s u g k r id level ∧ sendKeys (placed g k r id level s) = sendKeys u :=
      ⟨_, tookSlot_placed ho hdocked k r id level, rfl⟩
    rcases Nat.lt_or_ge (min 100 level) s.limits.readyThreshold with hlow | hready
    · obtain ⟨c, hc⟩ := placed_data_of_not_ready hlow g k r id
      exact ⟨_, hc, rfl, rfl, rfl, rfl, rfl, rfl, rfl, fun _ => ⟨rfl, rfl⟩,
        fun hready => absurd hready (Nat.not_le.mpr hlow), htook⟩
    · obtain ⟨e, he, hst, hstate⟩ := placed_data_of_ready hready g k r id
      obtain ⟨heid, hplace, hstamp, hbattery, hissue, hloan, hconfirmed⟩ := standing_eq_iff.mp hst
      exact ⟨e, he, heid, hplace, hstamp, hbattery, hconfirmed, hissue, hloan,
        fun hlow => absurd hready (Nat.not_le.mpr hlow), fun _ => hstate, htook⟩
  · rw [hdock, dockReport_of_invalid hk hid hv]
  · rw [hdock, dockReport_of_full hk hid ⟨h0, h1⟩ hfull]

end Sys2Proof.Machine
end

section
/-! DOCK of a known receiver (R127, R128). -/

namespace Sys2Proof.Machine

open Laws

variable {s t : State} {g h : PortNo} {k j : RackSlot} {r q : RecNo} {d : ReceiverData} {level : Nat} {id : BitVec 24}
  {p : ProgNo}

/-! ### A receiver that comes back (R128) -/

/-- A receiver that was out on a program is counted as returned, and its slot owes an UNKEY. -/
def comeBack (g : PortNo) (k : RackSlot) (d : ReceiverData) (s : State) : State :=
  if d.state = .issued ∨ d.state = .overdue then
    (match d.keyedProgram with
      | none => s
      | some p => countReturn p s).modRack g (Rack.placeUnkey k)
  else s

theorem comeBack_of_out (hst : d.state = .issued ∨ d.state = .overdue) (hp : d.keyedProgram = some p) (g : PortNo)
    (k : RackSlot) (s : State) : comeBack g k d s = (countReturn p s).modRack g (Rack.placeUnkey k) := by
  unfold comeBack
  rw [if_pos hst, hp]

theorem comeBack_of_in (hst : ¬ (d.state = .issued ∨ d.state = .overdue)) (g : PortNo) (k : RackSlot) (s : State) :
    comeBack g k d s = s := if_neg hst

theorem countReturn_fleet (p : ProgNo) (s : State) : FleetFrame s (countReturn p s) ∧
    (countReturn p s).receivers = s.receivers ∧ (countReturn p s).pool = s.pool ∧
    (countReturn p s).outfits = s.outfits ∧ (countReturn p s).racks = s.racks :=
  ⟨fleetFrame_changeCounts p _ s, (onlyFollowers_changeCounts p _ s).fleet⟩

theorem comeBack_fleet (g : PortNo) (k : RackSlot) (d : ReceiverData) (s : State) : FleetFrame s (comeBack g k d s) ∧
    (comeBack g k d s).receivers = s.receivers ∧ (comeBack g k d s).pool = s.pool ∧
    (comeBack g k d s).outfits = s.outfits := by
  have hunkey (t : State) : FleetFrame t (t.modRack g (Rack.placeUnkey k)) := fleetFrame_of_eq rfl
  have hself : FleetFrame s s := fleetFrame_of_eq rfl
  unfold comeBack
  split
  · split
    · exact ⟨hunkey s, rfl, rfl, rfl⟩
    · next p _ =>
      obtain ⟨hframe, hreceivers, hpool, houtfits, -⟩ := countReturn_fleet p s
      exact ⟨hframe.trans (hunkey _), hreceivers, hpool, houtfits⟩
  · exact ⟨hself, rfl, rfl, rfl⟩

theorem comeBack_rack (hst : d.state = .issued ∨ d.state = .overdue) (hp : d.keyedProgram = some p) (g : PortNo)
    (k : RackSlot) (s : State) : (comeBack g k d s).racks = s.racks.set g (s.racks[g].placeUnkey k) := by
  obtain ⟨-, -, -, -, hracks⟩ := countReturn_fleet p s
  rw [comeBack_of_out hst hp, State.modRack_racks, hracks]

theorem comeBack_counts (hst : d.state = .issued ∨ d.state = .overdue) (hp : d.keyedProgram = some p) (g : PortNo)
    (k : RackSlot) (s : State) : (comeBack g k d s).programs[p].issued = s.programs[p].issued - 1 ∧
      (comeBack g k d s).programs[p].keyed = s.programs[p].keyed := by
  obtain ⟨hkeyed, hissued⟩ := changeCounts_counts p (fun x => { x with issued := x.issued - 1 }) s
  rw [comeBack_of_out hst hp]
  exact ⟨hissued, hkeyed⟩

theorem placeUnkey_eq (k : RackSlot) (e : Rack) : e.placeUnkey k = { e with
    slots := e.slots.set k { e.slots[k] with unkeyOwed := true }, keyQueue := (e.placeUnkey k).keyQueue } := rfl

/-- A known receiver outside comes back and is placed in an empty slot. -/
theorem dockReport_of_outside (hk : s.racks[g].slots[k].occupant = .empty) (hd : s.receivers[r].data = some d)
    (hp : d.place = none) (hfirst : ∀ q : RecNo, q < r → s.receivers[q].data.map (·.id) ≠ some d.id) (level : Nat) :
    dockReport g k d.id level s = placed g k r d.id level (comeBack g k d s) := by
  obtain ⟨-, hreceivers, -, -⟩ := comeBack_fleet g k d s
  rw [dockReport_of_empty hk, undockElsewhere_of_outside hd hfirst hp,
    ← placeReceiver_eq (s := comeBack g k d s) (by rw [hreceivers, hd])]
  unfold dockFound
  rw [recordOf_of_first hd hfirst]
  simp only [hd]
  rfl

/-! ### A receiver confirmed in its slot (R127 case 1) -/

theorem serviced_batteryEffect (g : PortNo) (r : RecNo) (s : State) : Serviced s (batteryEffect g r s) := by
  have hready : Serviced s (enterPool r (s.changeReceiver r fun d => { d with state := .dockedReady })) :=
    (serviced_changeReceiver s r (f := fun d => { d with state := .dockedReady }) fun _ => rfl).trans
      (serviced_enterPool r _)
  unfold batteryEffect
  split
  · exact Serviced.refl s
  · refine ite_keeps (P := Serviced s) (Serviced.refl s) ?_
    exact (ite_keeps (P := Serviced s) hready (serviced_poolMove r s)).trans
      ((serviced_chargeSettle g r _).trans (serviced_issueGrants g _))

/-- The record of a receiver found in its slot. -/
def confirmed (r : RecNo) (d : ReceiverData) (level : Nat) (s : State) : State :=
  s.record r ⟨some { d with unconfirmed := false, battery := min 100 level }, s.receivers[r].generation⟩

theorem dockReport_of_there (hin : InSlot s g k r d) (level : Nat) :
    dockReport g k d.id level s = batteryEffect g r (confirmed r d level s) := by
  obtain ⟨hk, hd⟩ := hin
  have hthere : alreadyThere s g k d.id = some r := by
    unfold alreadyThere
    rw [hk]
    exact if_pos (by rw [hd]; rfl)
  have hnoted := noteReceiver_eq_record hd fun d => { d with unconfirmed := false }
  unfold dockReport batteryUpdate
  rw [hthere]
  dsimp only
  rw [hnoted, noteReceiver_eq_record (congrArg Receiver.data (record_self s r _)) fun d =>
    { d with battery := min 100 level }, record_record, record_self]
  rfl

/-- Settles O49: a receiver found in its slot by what service leaves (`serviced_batteryEffect`); one from outside by
its return (`comeBack`) and its placing (`placed_frame`, `tookSlot_placed`); the other cases by the undocking that
R127 puts first. -/
theorem dockOfAKnownReceiver : Obligations.DockOfAKnownReceiver := by
  unfold Obligations.DockOfAKnownReceiver
  intro s g k level r d hport hlevel hd
  have hdock := exec_dock hport k d.id level hlevel
  obtain ⟨hback, hreceivers, hpool, houtfits⟩ := comeBack_fleet g k d s
  refine ⟨fun hk => ?_, fun hk hp hfirst hlow => ?_, fun hk hp hst hfirst ho hdocked => ?_,
    fun p hk hp hst hkp hfirst ho hdocked => ?_, fun hk => dockReport_of_other hk level,
    fun h j hk hp hfirst => ?_⟩
  · have hserved := (serviced_batteryEffect g r (confirmed r d level s)).trans (serviced_sendKeys _)
    have hself : (confirmed r d level s).receivers[r].data =
        some { d with unconfirmed := false, battery := min 100 level } := by rw [confirmed, record_self]
    rw [dockReport_of_there ⟨hk, hd⟩] at hdock
    refine ⟨_, hdock, ((hserved.racks g).2 k).trans hk, (fleetFrame_of_eq rfl).trans hserved.fleetFrame, ?_⟩
    obtain ⟨e, he, hst⟩ := hserved.standing.of_some hself
    obtain ⟨heid, hplace, hstamp, hbattery, hissue, hloan, hconfirmed⟩ := standing_eq_iff.mp hst
    exact ⟨e, he, hconfirmed, hbattery, heid, hplace, hstamp, hissue, hloan⟩
  · obtain ⟨hframe, hprograms, hslot⟩ := placed_frame g k r d.id level (comeBack g k d s)
    rw [dockReport_of_outside hk hd hp hfirst] at hdock
    have hlow' : min 100 level < (comeBack g k d s).limits.readyThreshold := by rwa [hback.limits]
    obtain ⟨howed, hqueue⟩ := placed_racks_of_not_ready hlow' g k r d.id
    obtain ⟨c, hc⟩ := placed_data_of_not_ready hlow' g k r d.id
    refine ⟨_, hdock, hslot, hback.trans hframe, fun hst => ?_, fun p hst hkp => ?_, _, hc, rfl, rfl, rfl,
      congrArg some hback.clock, rfl, rfl, rfl, rfl, rfl, rfl⟩
    · rw [hprograms, howed, comeBack_of_in (by rw [hst]; decide)]
      exact ⟨rfl, rfl⟩
    · obtain ⟨hissued, hkeyed⟩ := comeBack_counts hst hkp g k s
      have hrack : (comeBack g k d s).racks[g] = s.racks[g].placeUnkey k := by
        rw [comeBack_rack hst hkp]
        simp
      rw [hprograms, howed, hqueue, hrack]
      refine ⟨hissued, hkeyed, ?_, mem_keyQueue_placeUnkey k _⟩
      rw [placeUnkey_eq]
      simp
  · rw [dockReport_of_outside hk hd hp hfirst, comeBack_of_in (by rw [hst]; decide)] at hdock
    exact ⟨_, tookSlot_placed ho hdocked k r d.id level, hdock⟩
  · rw [dockReport_of_outside hk hd hp hfirst] at hdock
    obtain ⟨hissued, hkeyed⟩ := comeBack_counts hst hkp g k s
    have hracks := comeBack_rack hst hkp g k s
    have hrack : (comeBack g k d s).racks[g] = s.racks[g].placeUnkey k := by
      rw [hracks]
      simp
    have hdocked' : ∀ x ∈ (comeBack g k d s).pool ++ (comeBack g k d s).racks[g].chargeQueue,
        Docked (comeBack g k d s) x := by
      rw [hpool, hrack]
      intro x hx
      obtain ⟨e, he, hdock⟩ := hdocked x hx
      exact ⟨e, by rw [hreceivers, he], hdock⟩
    refine ⟨_, _, tookSlot_placed (houtfits.trans ho) hdocked' k r d.id level, hdock, hback, hreceivers, hpool,
      houtfits, hissued, hkeyed, ?_, ?_⟩
    · rw [hrack, hracks]
      rfl
    · rw [hrack]
      exact keyQueue_placeUnkey k _
  · rw [dockReport_of_empty hk, undockElsewhere_of_place hd hfirst hp]

end Sys2Proof.Machine
end

section
/-! A rack that goes offline (R145, R168). -/

namespace Sys2Proof.Machine

open Laws

variable {s t : State} {g h : PortNo} {k j : RackSlot} {r y : RecNo} {d : ReceiverData} {rs : List RecNo}

/-! ### The receivers of a rack out of pool and charging -/

theorem mem_recordsIn : r ∈ recordsIn s g ↔ ∃ d, s.receivers[r].data = some d ∧ d.place.map (·.1) = some g := by
  rw [recordsIn, List.mem_filter, beq_iff_eq, placeOf_eq]
  cases s.receivers[r].data with
  | none => simp
  | some d => simp [mem_fins]

theorem mem_recordsIn_of_placeOf (h : (placeOf s r).map (·.1) = some g) : r ∈ recordsIn s g :=
  List.mem_filter.mpr ⟨mem_fins r, beq_iff_eq.mpr h⟩

/-- A record of a receiver that is not charging. -/
def Receiver.quiet (x : Receiver) : Receiver := { x with data := x.data.map fun d => { d with charging := false } }

theorem Receiver.quiet_quiet (x : Receiver) : x.quiet.quiet = x.quiet := by
  cases hx : x.data <;> simp [Receiver.quiet, hx]

/-- A receiver out of the pool and not charging. -/
def unplugged (r : RecNo) (s : State) : State :=
  (poolLeave r s).noteReceiver r fun d => { d with charging := false }

theorem unplugged_receivers (r : RecNo) (s : State) (y : RecNo) :
    (unplugged r s).receivers[y] = if y = r then s.receivers[y].quiet else s.receivers[y] := by
  by_cases h : y = r
  · subst h
    rw [if_pos rfl]
    exact modReceiver_self (poolLeave y s) y _
  · rw [if_neg h]
    exact modReceiver_ne (poolLeave r s) (Ne.symm h) _

theorem forEach_unplugged_receivers (rs : List RecNo) (s : State) (y : RecNo) :
    (forEach rs unplugged s).receivers[y] = if y ∈ rs then s.receivers[y].quiet else s.receivers[y] := by
  induction rs generalizing s with
  | nil => exact (if_neg List.not_mem_nil).symm
  | cons r rs ih =>
    rw [forEach_cons, ih, unplugged_receivers]
    by_cases hy : y = r <;> by_cases hm : y ∈ rs <;> simp [hy, hm, Receiver.quiet_quiet]

theorem forEach_unplugged_pool (rs : List RecNo) (s : State) :
    (forEach rs unplugged s).pool = s.pool.filter fun y => y ∉ rs := by
  induction rs generalizing s with
  | nil => simp [forEach]
  | cons r rs ih =>
    rw [forEach_cons, ih]
    show (s.pool.filter _).filter _ = _
    rw [List.filter_filter]
    exact List.filter_congr fun y _ => by by_cases hy : y = r <;> by_cases hm : y ∈ rs <;> simp [hy, hm]

theorem forEach_unplugged_eq (rs : List RecNo) (s : State) : forEach rs unplugged s = { s with
    receivers := (forEach rs unplugged s).receivers, pool := (forEach rs unplugged s).pool } :=
  forEach_keeps (P := fun t => t = { s with receivers := t.receivers, pool := t.pool }) rs
    (fun r t ht => by rw [ht]; rfl) s rfl

/-! ### The KEYING receivers of a rack returned -/

/-- A KEYING receiver returned to DOCKED_READY. -/
def ReceiverData.returned (d : ReceiverData) : ReceiverData :=
  { d with state := .dockedReady, keyedProgram := none, outfit := none }

/-- The record is of a receiver that is KEYING. -/
def Receiver.isKeying (x : Receiver) : Bool := x.data.any fun d => d.state == .keying

/-- The record is of a receiver that is KEYING for the order of this number. -/
def Receiver.keyingFor (n : BitVec 16) (x : Receiver) : Bool :=
  x.data.any fun d => d.state == .keying && d.outfit == some n

/-- The record once a KEYING receiver is returned. -/
def Receiver.unkeying (x : Receiver) : Receiver :=
  if x.isKeying then ⟨x.data.map ReceiverData.returned, x.generation + 1⟩ else x

theorem Receiver.unkeying_not_keying (x : Receiver) : x.unkeying.isKeying = false := by
  unfold Receiver.unkeying
  split
  · cases x.data <;> rfl
  · next h => simpa using h

theorem Receiver.unkeying_unkeying (x : Receiver) : x.unkeying.unkeying = x.unkeying := by
  rw [Receiver.unkeying, x.unkeying_not_keying]
  rfl

/-- A rack that only owes more UNKEYs. -/
def OwesMore (e e' : Rack) : Prop :=
  e' = { e with slots := e'.slots } ∧ ∀ k : RackSlot, e'.slots[k].occupant = e.slots[k].occupant ∧
    (e.slots[k].unkeyOwed = true → e'.slots[k].unkeyOwed = true)

theorem OwesMore.refl (e : Rack) : OwesMore e e := ⟨rfl, fun _ => ⟨rfl, id⟩⟩

theorem OwesMore.trans {a b c : Rack} (h : OwesMore a b) (h' : OwesMore b c) : OwesMore a c :=
  ⟨by rw [h'.1, h.1], fun k => ⟨(h'.2 k).1.trans (h.2 k).1, (h'.2 k).2 ∘ (h.2 k).2⟩⟩

theorem owesMore_owe (e : Rack) (k : RackSlot) : OwesMore e (e.owe k true) := by
  refine ⟨rfl, fun j => ?_⟩
  rw [Rack.owe, getElem_set_ite]
  split
  · next h => exact ⟨by rw [h], fun _ => rfl⟩
  · exact ⟨rfl, id⟩

theorem owesMore_modRack (s : State) (g h : PortNo) {f : Rack → Rack} (hf : OwesMore s.racks[g] (f s.racks[g])) :
    OwesMore s.racks[h] (s.modRack g f).racks[h] := by
  by_cases hne : g = h
  · subst hne
    rwa [modRack_racks_self]
  · rw [modRack_racks_ne _ hne]
    exact OwesMore.refl _

theorem loseKeying_of_other (h : s.receivers[r].isKeying = false) : loseKeying r s = s := by
  unfold loseKeying
  cases hd : s.receivers[r].data with
  | none => rfl
  | some d =>
    rw [Receiver.isKeying, hd] at h
    exact if_neg (by simpa using h)

theorem loseKeying_of_keying (hd : s.receivers[r].data = some d) (hst : d.state = .keying) : loseKeying r s =
    modOrderOf d.outfit OutfitOrder.lostOne (d.place.elim (s.changeReceiver r ReceiverData.returned)
      fun x => (s.changeReceiver r ReceiverData.returned).modRack x.1 fun e => e.owe x.2 true) := by
  unfold loseKeying returnKeying
  simp only [hd, if_pos hst]
  cases d.place <;> rfl

theorem isKeying_iff : s.receivers[r].isKeying = true ↔ ∃ d, s.receivers[r].data = some d ∧ d.state = .keying := by
  rw [Receiver.isKeying]
  cases s.receivers[r].data <;> simp

theorem keyingFor_of_not_keying {x : Receiver} (h : x.isKeying = false) (n : BitVec 16) : x.keyingFor n = false := by
  unfold Receiver.keyingFor
  unfold Receiver.isKeying at h
  cases hx : x.data with
  | none => rfl
  | some d =>
    rw [hx] at h
    exact Bool.and_eq_false_iff.mpr (.inl h)

theorem loseKeying_frame (r : RecNo) (s : State) : loseKeying r s = { s with
    receivers := (loseKeying r s).receivers, racks := (loseKeying r s).racks
    outfits := (loseKeying r s).outfits } := by
  by_cases hk : s.receivers[r].isKeying = true
  · obtain ⟨d, hd, hst⟩ := isKeying_iff.mp hk
    rw [loseKeying_of_keying hd hst, modOrderOf_eq]
    cases d.place <;> rfl
  · rw [loseKeying_of_other (Bool.eq_false_iff.mpr hk)]

theorem loseKeying_receivers (r : RecNo) (s : State) (y : RecNo) :
    (loseKeying r s).receivers[y] = if y = r then s.receivers[y].unkeying else s.receivers[y] := by
  by_cases hk : s.receivers[r].isKeying = true
  · obtain ⟨d, hd, hst⟩ := isKeying_iff.mp hk
    have hchange : (loseKeying r s).receivers = (s.changeReceiver r ReceiverData.returned).receivers := by
      rw [loseKeying_of_keying hd hst, modOrderOf_eq]
      cases d.place <;> rfl
    rw [hchange]
    by_cases hy : y = r
    · subst hy
      rw [if_pos rfl, Receiver.unkeying, if_pos hk]
      exact modReceiver_self s y _
    · rw [if_neg hy]
      exact modReceiver_ne s (Ne.symm hy) _
  · have hk' := Bool.eq_false_iff.mpr hk
    rw [loseKeying_of_other hk']
    split
    · next hy => rw [hy, Receiver.unkeying, if_neg hk]
    · rfl

theorem loseKeying_outfits (r : RecNo) (s : State) : (loseKeying r s).outfits = s.outfits.map fun o =>
    { o with selected := o.selected - (if s.receivers[r].keyingFor o.number then 1 else 0) } := by
  by_cases hk : s.receivers[r].isKeying = true
  · obtain ⟨d, hd, hst⟩ := isKeying_iff.mp hk
    have hfor (n : BitVec 16) : s.receivers[r].keyingFor n = true ↔ d.outfit = some n := by
      rw [Receiver.keyingFor, hd]
      simp [hst]
    have horders : (loseKeying r s).outfits =
        s.outfits.map fun o => if d.outfit = some o.number then o.lostOne else o := by
      rw [loseKeying_of_keying hd hst, modOrderOf_eq]
      cases d.place <;> rfl
    rw [horders]
    refine List.map_congr_left fun o _ => ?_
    simp only [hfor]
    split <;> rfl
  · have hk' := Bool.eq_false_iff.mpr hk
    rw [loseKeying_of_other hk']
    refine (List.map_id'' (fun o => ?_) _).symm
    rw [keyingFor_of_not_keying hk']
    rfl

theorem loseKeying_racks (r : RecNo) (s : State) (g : PortNo) : OwesMore s.racks[g] (loseKeying r s).racks[g] := by
  by_cases hk : s.receivers[r].isKeying = true
  · obtain ⟨d, hd, hst⟩ := isKeying_iff.mp hk
    rw [loseKeying_of_keying hd hst, modOrderOf_eq]
    cases d.place with
    | none => exact OwesMore.refl _
    | some x =>
      show OwesMore s.racks[g] ((s.changeReceiver r ReceiverData.returned).modRack x.1 fun e => e.owe x.2 true).racks[g]
      exact owesMore_modRack _ x.1 g (owesMore_owe _ x.2)
  · rw [loseKeying_of_other (Bool.eq_false_iff.mpr hk)]
    exact OwesMore.refl _

theorem loseKeying_owed (hd : s.receivers[r].data = some d) (hst : d.state = .keying) (hp : d.place = some (g, k)) :
    (loseKeying r s).racks[g].slots[k].unkeyOwed = true := by
  rw [loseKeying_of_keying hd hst, modOrderOf_eq, hp]
  show ((s.changeReceiver r ReceiverData.returned).modRack g fun e => e.owe k true).racks[g].slots[k].unkeyOwed = true
  rw [modRack_racks_self, Rack.owe, getElem_set_ite, if_pos rfl]

theorem forEach_loseKeying_receivers (rs : List RecNo) (s : State) (y : RecNo) :
    (forEach rs loseKeying s).receivers[y] = if y ∈ rs then s.receivers[y].unkeying else s.receivers[y] := by
  induction rs generalizing s with
  | nil => exact (if_neg List.not_mem_nil).symm
  | cons r rs ih =>
    rw [forEach_cons, ih, loseKeying_receivers]
    by_cases hy : y = r <;> by_cases hm : y ∈ rs <;> simp [hy, hm, Receiver.unkeying_unkeying]

/-- S of an order falls by one for each of the receivers that is KEYING for it. -/
theorem forEach_loseKeying_outfits (hn : rs.Nodup) (s : State) : (forEach rs loseKeying s).outfits =
    s.outfits.map fun o =>
      { o with selected := o.selected - rs.countP fun r => s.receivers[r].keyingFor o.number } := by
  induction rs generalizing s with
  | nil => exact (List.map_id _).symm
  | cons r rs ih =>
    obtain ⟨hr, hn⟩ := List.nodup_cons.mp hn
    have hrest (n : BitVec 16) : (rs.countP fun y => (loseKeying r s).receivers[y].keyingFor n) =
        rs.countP fun y => s.receivers[y].keyingFor n := by
      refine List.countP_congr fun y hy => ?_
      rw [loseKeying_receivers, if_neg fun h : y = r => hr (h ▸ hy)]
    rw [forEach_cons, ih hn, loseKeying_outfits, List.map_map]
    refine List.map_congr_left fun o _ => ?_
    simp only [Function.comp_apply, hrest, List.countP_cons, Nat.sub_sub, Nat.add_comm]

theorem forEach_loseKeying_frame (rs : List RecNo) (s : State) : forEach rs loseKeying s = { s with
    receivers := (forEach rs loseKeying s).receivers, racks := (forEach rs loseKeying s).racks
    outfits := (forEach rs loseKeying s).outfits } :=
  forEach_keeps (P := fun t => t = { s with receivers := t.receivers, racks := t.racks, outfits := t.outfits }) rs
    (fun r t ht => by rw [loseKeying_frame, ht]) s rfl

theorem forEach_loseKeying_racks (rs : List RecNo) (s : State) (g : PortNo) :
    OwesMore s.racks[g] (forEach rs loseKeying s).racks[g] :=
  forEach_keeps (f := loseKeying) (P := fun t => OwesMore s.racks[g] t.racks[g]) rs
    (fun r t ht => ht.trans (loseKeying_racks r t g)) s
    (OwesMore.refl _)

theorem forEach_loseKeying_owed (hr : r ∈ rs) (hd : s.receivers[r].data = some d) (hst : d.state = .keying)
    (hp : d.place = some (g, k)) : (forEach rs loseKeying s).racks[g].slots[k].unkeyOwed = true := by
  induction rs generalizing s with
  | nil => exact absurd hr List.not_mem_nil
  | cons y rs ih =>
    rw [forEach_cons]
    by_cases hy : r = y
    · subst hy
      exact ((forEach_loseKeying_racks rs _ g).2 k).2 (loseKeying_owed hd hst hp)
    · refine ih ((List.mem_cons.mp hr).resolve_left hy) ?_
      rw [loseKeying_receivers, if_neg hy, hd]

/-! ### The rack offline (R145) -/

/-- The hub before selection runs: the rack dark, its receivers out of the pool, none charging and none KEYING. -/
def darkened (g : PortNo) (s : State) : State :=
  forEach (recordsIn s g) loseKeying (forEach (recordsIn s g) unplugged (s.modRack g Rack.dark))

theorem rackOffline_eq (g : PortNo) (s : State) : rackOffline g s =
    queueNotice .rackOffline (some (BitVec.ofNat 16 g.val)) none
      (BitVec.ofNat 16 (slotRecords (runSelection (darkened g s)).racks[g]).length) (runSelection (darkened g s)) := rfl

theorem darkened_frame (g : PortNo) (s : State) : darkened g s = { s with
    receivers := (darkened g s).receivers, racks := (darkened g s).racks, pool := (darkened g s).pool
    outfits := (darkened g s).outfits } := by
  rw [darkened, forEach_loseKeying_frame, forEach_unplugged_eq]
  rfl

theorem darkened_receivers (g : PortNo) (s : State) (r : RecNo) : (darkened g s).receivers[r] =
    if r ∈ recordsIn s g then s.receivers[r].quiet.unkeying else s.receivers[r] := by
  rw [darkened, forEach_loseKeying_receivers, forEach_unplugged_receivers]
  split <;> rfl

theorem darkened_pool (g : PortNo) (s : State) : (darkened g s).pool = s.pool.filter fun r => r ∉ recordsIn s g := by
  rw [darkened, forEach_loseKeying_frame]
  exact forEach_unplugged_pool _ _

theorem nodup_recordsIn (g : PortNo) (s : State) : (recordsIn s g).Nodup := by
  rw [recordsIn, fins_eq_finRange]
  exact (List.nodup_finRange 320).filter _

theorem keyingFor_quiet (x : Receiver) (n : BitVec 16) : x.quiet.keyingFor n = x.keyingFor n := by
  unfold Receiver.keyingFor Receiver.quiet
  cases x.data <;> rfl

theorem darkened_outfits (g : PortNo) (s : State) : (darkened g s).outfits = s.outfits.map fun o => { o with
    selected := o.selected - (recordsIn s g).countP fun r => s.receivers[r].keyingFor o.number } := by
  rw [darkened, forEach_loseKeying_outfits (nodup_recordsIn g s), forEach_unplugged_eq]
  refine List.map_congr_left fun o _ => ?_
  have hcount : ((recordsIn s g).countP fun r =>
      (forEach (recordsIn s g) unplugged (s.modRack g Rack.dark)).receivers[r].keyingFor o.number) =
      (recordsIn s g).countP fun r => s.receivers[r].keyingFor o.number := by
    refine List.countP_congr fun r hr => ?_
    rw [forEach_unplugged_receivers, if_pos hr, keyingFor_quiet]
    rfl
  rw [hcount]

theorem darkened_racks (g : PortNo) (s : State) : OwesMore s.racks[g].dark (darkened g s).racks[g] := by
  have hdark : (forEach (recordsIn s g) unplugged (s.modRack g Rack.dark)).racks[g] = s.racks[g].dark := by
    rw [forEach_unplugged_eq]
    exact modRack_racks_self s g Rack.dark
  rw [← hdark]
  exact forEach_loseKeying_racks _ _ g

theorem place_unkeying_quiet (x : Receiver) : x.quiet.unkeying.data.bind (·.place) = x.data.bind (·.place) := by
  obtain ⟨data, n⟩ := x
  cases data with
  | none => rfl
  | some d =>
    unfold Receiver.unkeying
    split <;> rfl

theorem placeOf_darkened (g : PortNo) (s : State) (r : RecNo) : placeOf (darkened g s) r = placeOf s r := by
  rw [placeOf_eq, placeOf_eq, darkened_receivers]
  split
  · exact place_unkeying_quiet _
  · rfl

theorem not_mem_darkened_pool (h : placeOf s r = some (g, k)) : r ∉ (darkened g s).pool := by
  have hr : r ∈ recordsIn s g := by
    rw [recordsIn, List.mem_filter, h]
    exact ⟨mem_fins r, beq_self_eq_true _⟩
  rw [darkened_pool, List.mem_filter]
  exact fun hm => of_decide_eq_true hm.2 hr

/-- The receivers in the slots of a rack. -/
theorem length_slotRecords (e : Rack) : (slotRecords e).length =
    (List.finRange 40).countP fun k => match e.slots[k].occupant with
      | .receiver _ => true
      | .empty | .unregistered => false := by
  rw [slotRecords, fins_eq_finRange, List.length_filterMap_eq_countP]
  refine List.countP_congr fun k _ => ?_
  cases e.slots[k].occupant <;> rfl

theorem quiet_unkeying {x : Receiver} (hd : x.quiet.unkeying.data = some d) :
    d.charging = false ∧ d.state ≠ .keying := by
  obtain ⟨data, n⟩ := x
  cases data with
  | none => cases hd
  | some e =>
    by_cases hst : e.state = .keying
    · have hk : (Receiver.quiet ⟨some e, n⟩).isKeying = true := beq_iff_eq.mpr hst
      rw [Receiver.unkeying, if_pos hk] at hd
      cases hd
      exact ⟨rfl, RecState.noConfusion⟩
    · have hk : ¬ (Receiver.quiet ⟨some e, n⟩).isKeying = true := fun h => hst (beq_iff_eq.mp h)
      rw [Receiver.unkeying, if_neg hk] at hd
      cases hd
      exact ⟨rfl, hst⟩

theorem unkeying_quiet_of_keying {x : Receiver} (hd : x.data = some d) (hst : d.state = .keying) :
    x.quiet.unkeying.data = some { d with
      state := .dockedReady, charging := false, keyedProgram := none, outfit := none } := by
  have hk : x.quiet.isKeying = true := by
    rw [Receiver.isKeying, Receiver.quiet, hd]
    exact beq_iff_eq.mpr hst
  rw [Receiver.unkeying, if_pos hk, Receiver.quiet, hd]
  rfl

theorem darkened_owed (hd : s.receivers[r].data = some d) (hst : d.state = .keying) (hp : d.place = some (g, k)) :
    (darkened g s).racks[g].slots[k].unkeyOwed = true := by
  have hr : r ∈ recordsIn s g := mem_recordsIn.mpr ⟨d, hd, by rw [hp]; rfl⟩
  have hquiet : (forEach (recordsIn s g) unplugged (s.modRack g Rack.dark)).receivers[r].data =
      some { d with charging := false } := by
    rw [forEach_unplugged_receivers, if_pos hr]
    show (s.receivers[r].data.map _) = _
    rw [hd]
    rfl
  exact forEach_loseKeying_owed hr hquiet hst hp

/-- A rack goes offline (R145): what stands before selection, and selection from the pool of the other racks. -/
theorem wentOffline_rackOffline (g : PortNo) (s : State) : WentOffline s (rackOffline g s) g := by
  obtain ⟨hdark, hslots⟩ := darkened_racks g s
  have hpool : ∀ r ∈ (darkened g s).pool, ∀ k, placeOf (darkened g s) r ≠ some (g, k) := fun r hr k hp =>
    not_mem_darkened_pool (placeOf_darkened g s r ▸ hp) hr
  have hrack := runSelection_racks_of_no_member hpool
  have hin (r : RecNo) :
      (s.receivers[r].data.any fun d => d.place.map (·.1) == some g) = decide (r ∈ recordsIn s g) := by
    rw [Bool.eq_iff_iff, decide_eq_true_iff, mem_recordsIn]
    cases s.receivers[r].data <;> simp
  have hkept {r : RecNo} (hr : r ∈ recordsIn s g) : r ∉ (darkened g s).pool ∧
      (runSelection (darkened g s)).receivers[r] = s.receivers[r].quiet.unkeying := by
    have hout : r ∉ (darkened g s).pool := by
      rw [darkened_pool, List.mem_filter]
      exact fun hm => of_decide_eq_true hm.2 hr
    rw [runSelection_receivers_of_not_mem hout, darkened_receivers, if_pos hr]
    exact ⟨hout, rfl⟩
  refine ⟨runSelection (darkened g s), ?_, ?_, ?_, fun k => ?_, fun r d hd hp => ?_, fun r d k hd hst hp => ?_, ?_⟩
  · rw [rackOffline_eq, length_slotRecords, hrack]
    simp only [(hslots _).1]
    rfl
  · rw [runSelection_frame, darkened_frame]
  · rw [hrack, hdark]
    rfl
  · rw [hrack]
    exact (hslots k).1
  · have hplace : placeOf (runSelection (darkened g s)) r = d.place := by rw [placeOf_eq, hd]; rfl
    rw [(serviced_runSelection (darkened g s)).standing.placeOf r, placeOf_darkened] at hplace
    obtain ⟨hout, hself⟩ := hkept (mem_recordsIn_of_placeOf (hplace ▸ hp))
    rw [hself] at hd
    refine ⟨fun hm => hout ?_, quiet_unkeying hd⟩
    rw [runSelection_pool] at hm
    exact List.mem_of_mem_drop hm
  · obtain ⟨-, hself⟩ := hkept (mem_recordsIn.mpr ⟨d, hd, by rw [hp]; rfl⟩)
    rw [hrack, hself]
    exact ⟨darkened_owed hd hst hp, unkeying_quiet_of_keying hd hst⟩
  · refine selectedFrom_runSelection s ?_ ?_
    · rw [darkened_outfits]
      refine List.map_congr_left fun o _ => ?_
      have hcount : ((recordsIn s g).countP fun r => s.receivers[r].keyingFor o.number) =
          (List.finRange 320).countP fun r => (s.receivers[r].data.any fun d => d.place.map (·.1) == some g) &&
            s.receivers[r].data.any fun d => d.state == .keying && d.outfit == some o.number := by
        rw [recordsIn, fins_eq_finRange, List.countP_filter]
        refine List.countP_congr fun r _ => ?_
        rw [placeOf_eq, Receiver.keyingFor]
        cases s.receivers[r].data <;> simp [and_comm]
      rw [hcount]
    · rw [darkened_pool]
      refine List.filter_congr fun r _ => ?_
      exact (decide_not ..).trans (congrArg not (hin r).symm)

/-- What a rack's going offline changes of the hub, and how the rack and its receivers stand then. -/
theorem WentOffline.outcome (h : WentOffline s t g) :
    t = { s with receivers := t.receivers, racks := t.racks, pool := t.pool, outfits := t.outfits
                 notices := t.notices, noticeOverflow := t.noticeOverflow } ∧
    t.racks[g] = { Rack.initial with
      slots := t.racks[g].slots, grantLimit := s.racks[g].grantLimit, generation := s.racks[g].generation } ∧
    (∀ k : RackSlot, t.racks[g].slots[k].occupant = s.racks[g].slots[k].occupant) ∧
    ∀ (r : RecNo) (d : ReceiverData), t.receivers[r].data = some d → d.place.map (·.1) = some g →
      r ∉ t.pool ∧ d.charging = false ∧ d.state ≠ .keying := by
  obtain ⟨x, ht, hx, hrack, hoccupants, hreceivers, -, -⟩ := h
  rw [ht, queueNotice_eq]
  exact ⟨by rw [hx], hrack, hoccupants, hreceivers⟩

/-- A port without link: nothing queued, nothing on the line (R168). -/
def Port.down (e : Port) : Port := { e with link := .down, queue := [], line := none }

theorem exec_linkDown_of_rack (hrun : s.phase = .running) (hup : s.ports[g].link = .up)
    (hrole : s.ports[g].role = .rack) :
    exec (.linkDown g) s = .next (sendKeys (queueNotice .linkDown (some (BitVec.ofNat 16 g.val)) (some 2)
      (BitVec.ofNat 16 s.ports[g].queue.length) (rackOffline g (s.modPort g Port.down)))) := by
  change execLinkDown g s = _
  rw [execLinkDown, running_of_running s hrun, if_pos hup, if_pos hrole, linkDown, hrole]
  rfl

/-- Settles O17: what the rack's loss leaves (`wentOffline_rackOffline`), seen through the two notices and the sending,
which hands nothing to the port of an offline rack. -/
theorem linkDownOfRackPutsItOffline : Obligations.LinkDownOfRackPutsItOffline := by
  unfold Obligations.LinkDownOfRackPutsItOffline
  intro s p hrun hup hrole
  have hexec := exec_linkDown_of_rack hrun hup hrole
  have hoffline := wentOffline_rackOffline p (s.modPort p Port.down)
  generalize rackOffline p (s.modPort p Port.down) = x at hexec hoffline
  refine ⟨_, x, hexec, hoffline, rfl, ?_⟩
  obtain ⟨hx, hrack, hoccupants, hreceivers⟩ := hoffline.outcome
  obtain ⟨y, hy⟩ : ∃ y, y = queueNotice .linkDown (some (BitVec.ofNat 16 p.val)) (some 2)
    (BitVec.ofNat 16 s.ports[p].queue.length) x := ⟨_, rfl⟩
  have hy' : y = { s.modPort p Port.down with
      receivers := x.receivers, racks := x.racks, pool := x.pool, outfits := x.outfits
      notices := y.notices, noticeOverflow := y.noticeOverflow } := by
    rw [hy, queueNotice_eq, hx]
  have hyracks : y.racks = x.racks := by rw [hy']
  have hyreceivers : y.receivers = x.receivers := by rw [hy']
  have hypool : y.pool = x.pool := by rw [hy']
  have hyport : y.ports[p] = s.ports[p].down := by
    rw [hy']
    simp
  have hyothers (q : PortNo) (hq : q ≠ p) : y.ports[q] = s.ports[q] := by
    have hv : p.val ≠ q.val := fun e => hq (Fin.ext e.symm)
    rw [hy']
    simp [Vector.getElem_set_ne, hv]
  have hoff : y.racks[p].online = false := by rw [hyracks, hrack]; rfl
  obtain ⟨-, hports, -⟩ := grown_sendKeys y
  have hsent := onlySent_sendKeys y
  have htport : (sendKeys y).ports[p] = s.ports[p].down := (sendKeys_ports_of_offline hoff).trans hyport
  have htrack : (sendKeys y).racks[p] = x.racks[p] := by
    rw [sendKeys_racks, Rack.sent_of_offline hoff, hyracks]
  rw [← hy]
  refine ⟨⟨?_, ?_, ?_, fun q => ?_⟩, htport, fun q hq => ?_, ?_, fun k => ?_, fun r d hd hp => ?_, ?_, ?_, ?_, ?_, ?_,
    ?_⟩
  · rw [hsent, hy']; rfl
  · rw [hsent, hy']; rfl
  · rw [hsent, hy']; rfl
  · by_cases hq : q = p
    · rw [hq, htport]; rfl
    · rw [(hports q).1, hyothers q hq]
  · obtain ⟨hprole, hplink, hpgen⟩ := hports q
    rw [hprole, hplink, hpgen, hyothers q hq]
    exact ⟨rfl, rfl, rfl⟩
  · rw [htrack]
    exact hrack
  · rw [htrack]
    exact hoccupants k
  · rw [sendKeys_receivers, hyreceivers] at hd
    rw [hsent.pool, hypool]
    exact hreceivers r d hd hp
  all_goals rw [hsent, hy']; rfl

end Sys2Proof.Machine
end

section
/-! Outfit orders made and cancelled (R119, R120, R124). -/

namespace Sys2Proof.Machine

open Laws

variable {s t u : State} {g : PortNo} {r y : RecNo} {d : ReceiverData} {p : PortNo} {tag n : BitVec 16}
  {rest : List Request} {m : TourNo} {l : LangSlot} {orders : List OutfitOrder} {o : OutfitOrder}

/-! ### The number of the next order (R119) -/

theorem followingNumber_ne_zero (n : BitVec 16) : followingNumber n ≠ 0 := by
  unfold followingNumber
  split
  · decide
  · next h =>
    intro h0
    refine h (BitVec.eq_of_toNat_eq ?_)
    have hn := n.isLt
    have hsum := congrArg BitVec.toNat h0
    rw [BitVec.toNat_add] at hsum
    have hone : (1 : BitVec 16).toNat = 1 := rfl
    have hzero : (0 : BitVec 16).toNat = 0 := rfl
    have hlast : (0xFFFF : BitVec 16).toNat = 65535 := rfl
    omega

theorem unheldNumber_ne_zero (k : Nat) (orders : List OutfitOrder) (hn : n ≠ 0) : unheldNumber k orders n ≠ 0 := by
  induction k generalizing n with
  | zero => exact hn
  | succ k ih =>
    unfold unheldNumber
    split
    · exact ih (followingNumber_ne_zero n)
    · exact hn

/-- The numbers go round from 1 to 65535. -/
theorem toNat_followingNumber (n : BitVec 16) : (followingNumber n).toNat = n.toNat % 65535 + 1 := by
  have hlt := n.isLt
  unfold followingNumber
  split
  · next h => rw [h]; rfl
  · next h =>
    have hne : n.toNat ≠ 65535 := fun he => h (BitVec.eq_of_toNat_eq he)
    rw [BitVec.toNat_add]
    have hone : (1 : BitVec 16).toNat = 1 := rfl
    omega

theorem toNat_iterate_followingNumber (hn : n ≠ 0) (i : Nat) :
    (followingNumber^[i] n).toNat = (n.toNat - 1 + i) % 65535 + 1 := by
  have hlt := n.isLt
  have hpos : n.toNat ≠ 0 := fun h => hn (BitVec.eq_of_toNat_eq h)
  induction i with
  | zero =>
    show n.toNat = _
    omega
  | succ i ih =>
    rw [Function.iterate_succ_apply', toNat_followingNumber, ih]
    omega

/-- A number that is held at the end of the search was held all along it. -/
theorem held_of_unheldNumber {k : Nat} (h : unheldNumber k orders n ∈ orders.map (·.number)) :
    ∀ i ≤ k, followingNumber^[i] n ∈ orders.map (·.number) := by
  induction k generalizing n with
  | zero =>
    intro i hi
    obtain rfl : i = 0 := by omega
    exact h
  | succ k ih =>
    have hheld : (orders.any fun o => o.number == n) = true ↔ n ∈ orders.map (·.number) := by
      simp only [List.any_eq_true, beq_iff_eq, List.mem_map]
    unfold unheldNumber at h
    intro i hi
    split at h
    · next hn =>
      rcases i with - | i
      · exact hheld.mp hn
      · exact ih h i (by omega)
    · next hn => exact absurd (hheld.mpr h) hn

/-- At most as many numbers are held as the search goes on for, so it ends at one that no order holds (R119). -/
theorem unheldNumber_not_held {k : Nat} (hn : n ≠ 0) (hk : k < 65535) (hlen : orders.length ≤ k) :
    ∀ o ∈ orders, o.number ≠ unheldNumber k orders n := by
  intro o ho hnum
  have hheld := held_of_unheldNumber (hnum ▸ List.mem_map_of_mem (f := OutfitOrder.number) ho)
  have hnodup : ((List.range (k + 1)).map fun i => followingNumber^[i] n).Nodup := by
    refine List.Nodup.map_on (fun i hi j hj hij => ?_) List.nodup_range
    have hnat := congrArg BitVec.toNat hij
    rw [toNat_iterate_followingNumber hn, toNat_iterate_followingNumber hn] at hnat
    rw [List.mem_range] at hi hj
    omega
  have hsub : ((List.range (k + 1)).map fun i => followingNumber^[i] n) ⊆ orders.map (·.number) := by
    intro x hx
    obtain ⟨i, hi, rfl⟩ := List.mem_map.mp hx
    exact hheld i (by rw [List.mem_range] at hi; omega)
  have hle := (List.subperm_of_subset hnodup hsub).length_le
  rw [List.length_map, List.length_map, List.length_range] at hle
  omega

/-! ### An order made (R120) -/

/-- A new order. -/
def newOrder (m : TourNo) (l : LangSlot) (want : Nat) (s : State) : OutfitOrder :=
  { number := s.nextOrder, tour := m, lang := l, want := want, selected := 0, keyed := 0, failed := 0 }

/-- The hub with a new order at the tail, before selection. -/
def ordered (m : TourNo) (l : LangSlot) (want : Nat) (s : State) : State :=
  { s with outfits := s.outfits ++ [newOrder m l want s]
           nextOrder := unheldNumber Config.outfitOrders (s.outfits ++ [newOrder m l want s])
             (followingNumber s.nextOrder) }

theorem createOrder_eq (m : TourNo) (l : LangSlot) (want : Nat) (s : State) :
    createOrder m l want s = runSelection (ordered m l want s) := rfl

/-- What selection leaves of the hub with a new order. -/
theorem serviced_createOrder (m : TourNo) (l : LangSlot) (want : Nat) (s : State) :
    Serviced (ordered m l want s) (sendKeys (createOrder m l want s)) :=
  (serviced_runSelection _).trans (serviced_sendKeys _)

theorem createOrder_pool (m : TourNo) (l : LangSlot) (want : Nat) (s : State) :
    (sendKeys (createOrder m l want s)).pool <:+ s.pool := by
  rw [(onlySent_sendKeys _).pool, createOrder_eq, runSelection_pool]
  exact List.drop_suffix _ _

/-- No order holds the number that the next one gets. -/
theorem nextOrder_not_held (hroom : s.outfits.length < 8) (m : TourNo) (l : LangSlot) (want : Nat) :
    ∀ o ∈ (sendKeys (createOrder m l want s)).outfits, o.number ≠ (ordered m l want s).nextOrder := by
  intro o ho
  have hmap := congrArg (List.map Prod.fst) (serviced_createOrder m l want s).orders
  rw [List.map_map, List.map_map] at hmap
  have hmem : o.number ∈ (ordered m l want s).outfits.map (·.number) := hmap ▸ List.mem_map_of_mem ho
  obtain ⟨o', ho', hnum⟩ := List.mem_map.mp hmem
  rw [← hnum]
  refine unheldNumber_not_held (followingNumber_ne_zero _) (by decide) ?_ o' ho'
  rw [List.length_append]
  exact hroom

/-! ### OUTFIT served (R120, R151) -/

theorem formOk_outfit {x y z v : Nat} (hx : x < 256) (hy : y < 256) (hz : z < 256) (hv : v < 256) :
    formOk 4 (some 3) (requestPayload tag 6 (openOperands x y z v)) = (v == 0) := by
  simp only [formOk, headerOk_requestPayload, operandsOf_requestPayload, (byteAt_openOperands hx hy hz hv).2.2.2]
  rfl

/-- What serving OUTFIT with these operands gives, once the reserved byte is zero (R151). -/
theorem serveOutfit_of_zero {x y z : Nat} (hx : x < 256) (hy : y < 256) (hz : z < 256) :
    serveOutfit p (requestPayload tag 6 (openOperands x y z 0)) s =
      match toFin 24 x, toFin 4 y with
      | some m, some l =>
        if s.tours[m].state ≠ .opened ∨ s.programs[progOf m l].mode = .unset then refuse .refusedState s
        else if Config.outfitOrders ≤ s.outfits.length then refuse .tableFull s
        else done (orderResult (sendKeys (createOrder m l (clamp 1 40 z) s)) s.nextOrder)
          (sendKeys (createOrder m l (clamp 1 40 z) s))
      | _, _ => refuse .noSuch s := by
  obtain ⟨h0, h1, h2, -⟩ := byteAt_openOperands hx hy hz (show 0 < 256 by decide)
  simp only [serveOutfit, formOk_outfit hx hy hz (show 0 < 256 by decide), operandsOf_requestPayload, h0, h1, h2]
  rfl

theorem exec_outfit_taken {want : Nat}
    (hs : Serving s p (requestPayload tag 6 (openOperands m.val l.val want 0)) rest)
    (hwant : want < 256) (hopen : s.tours[m].state = .opened) (hmode : s.programs[progOf m l].mode ≠ .unset)
    (hroom : s.outfits.length < 8)
    (hu : u = sendKeys (createOrder m l (clamp 1 40 want) { s with requests := rest })) :
    exec .outfit s = .next (respond p (.response tag 6 .ok (orderResult u s.nextOrder)) u) := by
  have hm := m.isLt
  have hl := l.isLt
  have hstate : ¬ (s.tours[m].state ≠ .opened ∨ s.programs[progOf m l].mode = .unset) := by
    rintro (h | h)
    · exact h hopen
    · exact hmode h
  have hserve : serveOutfit p (requestPayload tag 6 (openOperands m.val l.val want 0)) { s with requests := rest } =
      done (orderResult u s.nextOrder) u := by
    rw [serveOutfit_of_zero (by omega) (by omega) hwant, hu]
    simp only [toFin_val]
    exact (if_neg hstate).trans (if_neg (Nat.not_le.mpr hroom))
  refine (serveHead_of_serving hs rfl).trans ?_
  rw [hserve]
  rfl

theorem exec_outfit_refused {x y z v : Nat} {status : Status}
    (hs : Serving s p (requestPayload tag 6 (openOperands x y z v)) rest)
    (h : serveOutfit p (requestPayload tag 6 (openOperands x y z v)) { s with requests := rest } =
      refuse status { s with requests := rest }) : AnsweredAlone .outfit s p rest (.response tag 6 status []) := by
  refine (serveHead_of_serving hs rfl).trans ?_
  rw [h]
  rfl

/-! ### An order cancelled (R124) -/

theorem serviced_cancelFlying (n : BitVec 16) (r : RecNo) (s : State) : Serviced s (cancelFlying n r s) := by
  unfold cancelFlying
  split
  · exact Serviced.refl s
  · exact ite_keeps (P := Serviced s) (serviced_noteReceiver s r fun _ => rfl) (Serviced.refl s)

theorem serviced_dropWaitingKey (place : Option (PortNo × RackSlot)) (s : State) :
    Serviced s (dropWaitingKey place s) := by
  unfold dropWaitingKey
  split
  · exact Serviced.refl s
  · exact serviced_modRack s _ (rackKept_withWaiting _ _)

theorem cancelWaiting_of_other (h : ∀ d, s.receivers[r].data = some d → ¬ (d.state = .keying ∧ d.outfit = some n)) :
    cancelWaiting n r s = s := by
  unfold cancelWaiting
  split
  · rfl
  · next d hd => exact if_neg (h d hd)

theorem cancelWaiting_of_keying (hd : s.receivers[r].data = some d) (hst : d.state = .keying ∧ d.outfit = some n) :
    cancelWaiting n r s =
      enterPool r ((dropWaitingKey d.place s).changeReceiver r ReceiverData.returned) := by
  unfold cancelWaiting
  rw [hd]
  exact if_pos hst

theorem serviced_cancelWaiting (n : BitVec 16) (r : RecNo) (s : State) : Serviced s (cancelWaiting n r s) := by
  by_cases h : ∃ d, s.receivers[r].data = some d ∧ d.state = .keying ∧ d.outfit = some n
  · obtain ⟨d, hd, hst⟩ := h
    rw [cancelWaiting_of_keying hd hst]
    exact ((serviced_dropWaitingKey d.place s).trans
      (serviced_changeReceiver _ r (f := ReceiverData.returned) fun _ => rfl)).trans (serviced_enterPool r _)
  · rw [cancelWaiting_of_other fun d hd hst => h ⟨d, hd, hst⟩]
    exact Serviced.refl s

/-- The hub without the orders of a number. -/
def withoutOrder (n : BitVec 16) (s : State) : State :=
  { s with outfits := s.outfits.filter fun o => !(o.number == n) }

theorem serviced_cancelOrder (n : BitVec 16) (s : State) : Serviced (withoutOrder n s) (cancelOrder n s) :=
  (forEach_keeps (f := cancelFlying n) (P := Serviced (withoutOrder n s)) (fins 320)
    (fun r t ht => ht.trans (serviced_cancelFlying n r t)) _ (Serviced.refl _)).trans
  (forEach_keeps (f := cancelWaiting n) (P := Serviced _) (fins 320)
    (fun r t ht => ht.trans (serviced_cancelWaiting n r t)) _ (Serviced.refl _))

/-- The receiver is not KEYING for the order of this number. -/
def NotFor (n : BitVec 16) (r : RecNo) (s : State) : Prop :=
  ∀ d, s.receivers[r].data = some d → d.state = .keying → d.outfit ≠ some n

theorem Serviced.without_iff (h : Serviced s t) : Without n t ↔ Without n s := by
  have hmap := congrArg (List.map Prod.fst) h.orders
  rw [List.map_map, List.map_map] at hmap
  have hwithout (x : State) : Without n x ↔ n ∉ x.outfits.map (Prod.fst ∘ OutfitOrder.aside) := by
    rw [List.mem_map]
    exact ⟨fun hx ⟨o, ho, hn⟩ => hx o ho hn, fun hx o ho hn => hx ⟨o, ho, hn⟩⟩
  rw [hwithout, hwithout, hmap]

/-- Selection makes no one KEYING for an order that is gone. -/
theorem notFor_enterPool (hn : Without n s) (h : NotFor n y s) (r : RecNo) : NotFor n y (enterPool r s) := by
  unfold enterPool
  split
  · exact h
  · refine ite_keeps (P := NotFor n y) (fun d hd hst => ?_) h
    rcases runSelection_receivers (poolInsert r s) y with he | ⟨-, o, ho, he⟩
    · rw [he] at hd
      exact h d hd hst
    · rw [he] at hd
      obtain ⟨d', -, rfl⟩ := Option.map_eq_some_iff.mp hd
      exact fun hnum => hn o ho (Option.some.inj hnum)

theorem notFor_changeReceiver (h : y ≠ r → NotFor n y s) :
    NotFor n y (s.changeReceiver r ReceiverData.returned) := by
  intro d hd hst
  by_cases hy : y = r
  · subst hy
    rw [changeReceiver_self] at hd
    obtain ⟨d', -, rfl⟩ := Option.map_eq_some_iff.mp hd
    exact absurd hst RecState.noConfusion
  · rw [changeReceiver_ne _ (Ne.symm hy)] at hd
    exact h hy d hd hst

theorem dropWaitingKey_receivers (place : Option (PortNo × RackSlot)) (s : State) :
    (dropWaitingKey place s).receivers = s.receivers := by
  unfold dropWaitingKey
  split <;> rfl

/-- Cancelling at a receiver leaves it KEYING for another order at most, and no one else worse off. -/
theorem notFor_cancelWaiting (hn : Without n s) (h : y ≠ r → NotFor n y s) : NotFor n y (cancelWaiting n r s) := by
  by_cases hk : ∃ d, s.receivers[r].data = some d ∧ d.state = .keying ∧ d.outfit = some n
  · obtain ⟨d, hd, hst⟩ := hk
    rw [cancelWaiting_of_keying hd hst]
    have hserved : Serviced s ((dropWaitingKey d.place s).changeReceiver r ReceiverData.returned) :=
      (serviced_dropWaitingKey d.place s).trans (serviced_changeReceiver _ r fun _ => rfl)
    refine notFor_enterPool (hserved.without_iff.mpr hn) (notFor_changeReceiver fun hy => ?_) r
    intro d' hd' hst'
    rw [dropWaitingKey_receivers] at hd'
    exact h hy d' hd' hst'
  · rw [cancelWaiting_of_other fun d hd hst => hk ⟨d, hd, hst⟩]
    by_cases hy : y = r
    · subst hy
      exact fun d hd hst hnum => hk ⟨d, hd, hst, hnum⟩
    · exact h hy

/-- No receiver is KEYING for a cancelled order (R124). -/
theorem notFor_cancelOrder (n : BitVec 16) (y : RecNo) (s : State) : NotFor n y (cancelOrder n s) := by
  have hgone : Without n (cancelOrder n s) := without_cancelOrder n s
  refine forEach_settles (f := cancelWaiting n) (Q := fun y t => Without n t → NotFor n y t) (mem_fins y)
    (fun t ht => ?_) (fun r t hkept ht => ?_) _ hgone
  · have hbefore := (serviced_cancelWaiting n _ t).without_iff.mp ht
    exact notFor_cancelWaiting hbefore fun h => absurd rfl h
  · have hbefore := (serviced_cancelWaiting n r t).without_iff.mp ht
    exact notFor_cancelWaiting hbefore fun _ => hkept hbefore

/-! ### CANCEL_OUTFIT served (R124, R151) -/

theorem serveCancel_eq (n : BitVec 16) : serveCancel p (requestPayload tag 7 (put16 n.toNat)) s =
    match orderOf s n with
    | none => refuse .noSuch s
    | some o => done (orderBytes { o with selected := flyingFor s n }) (sendKeys (cancelOrder n s)) := by
  have hword : BitVec.ofNat 16 (wordAt (put16 n.toNat) 0) = n := by
    rw [show wordAt (put16 n.toNat) 0 = n.toNat from wordAt_put16 n.toNat [] n.isLt, BitVec.ofNat_toNat,
      BitVec.setWidth_eq]
  have hform : formOk 2 none (requestPayload tag 7 (put16 n.toNat)) = true := by
    simp [formOk, put16]
  simp only [serveCancel, hform, operandsOf_requestPayload, hword]
  rfl

/-- Settles O42: selection for a new order leaves number and place of all (`serviced_createOrder`), the next number by
the search among 9 numbers of which at most 8 are held (`nextOrder_not_held`); after a cancel no receiver is KEYING for
the order, and none can be selected for it (`notFor_cancelOrder`). -/
theorem outfitOrdersComeAndGo : Obligations.OutfitOrdersComeAndGo := by
  unfold Obligations.OutfitOrdersComeAndGo
  refine ⟨fun s p rest tag m l want hwant hs hopen hmode hroom => ?_, fun s p rest tag n o hs ho => ?_,
    fun s p rest tag => ⟨fun x y want v hx hy hwant hv hs => ?_, fun n hs hnone => ?_⟩⟩
  · have hserved := serviced_createOrder m l (clamp 1 40 want) { s with requests := rest }
    have hexec := exec_outfit_taken hs hwant hopen hmode hroom rfl
    have hpool := createOrder_pool m l (clamp 1 40 want) { s with requests := rest }
    have hnot := nextOrder_not_held (s := { s with requests := rest }) hroom m l (clamp 1 40 want)
    have hnext : (sendKeys (createOrder m l (clamp 1 40 want) { s with requests := rest })).nextOrder =
        (ordered m l (clamp 1 40 want) { s with requests := rest }).nextOrder := by rw [hserved.eq]
    rw [← hnext] at hnot
    refine ⟨_, hexec, ?_, ?_, hnot, hpool, hserved.programs, ?_⟩
    · refine hserved.orders.trans ?_
      exact List.map_append ..
    · rw [hnext]
      exact unheldNumber_ne_zero _ _ (followingNumber_ne_zero _)
    · refine FleetFrame.trans (fleetFrame_of_eq ?_) hserved.fleetFrame
      rw [hnext]
      rfl
  · have hserved := (serviced_cancelOrder n { s with requests := rest }).trans (serviced_sendKeys _)
    have hnum : o.number = n := by simpa using List.find?_some ho
    have ho' : orderOf { s with requests := rest } n = some o := ho
    obtain ⟨u, hu⟩ : ∃ u, u = sendKeys (cancelOrder n { s with requests := rest }) := ⟨_, rfl⟩
    rw [← hu] at hserved
    have hserve := serveCancel_eq (p := p) (tag := tag) (s := { s with requests := rest }) n
    rw [ho', ← hu] at hserve
    refine ⟨u, ?_, ?_, fun r d hd hst => ?_, hserved.programs, (fleetFrame_of_eq rfl).trans hserved.fleetFrame⟩
    · refine (serveHead_of_serving hs rfl).trans ?_
      rw [hserve, ← hnum]
      rfl
    · refine hserved.orders.trans (congrArg (List.map OutfitOrder.aside) ?_)
      exact List.filter_congr fun o _ => by by_cases h : o.number = n <;> simp [h]
    · rw [hu, sendKeys_receivers] at hd
      exact notFor_cancelOrder n r _ d hd hst
  · have hanswer {status : Status} (h : serveOutfit p (requestPayload tag 6 (openOperands x y want v))
        { s with requests := rest } = refuse status { s with requests := rest }) := exec_outfit_refused hs h
    refine ⟨fun h => hanswer ?_, fun h h' => hanswer ?_, fun m l h hm hl =>
      ⟨fun hst => hanswer ?_, fun hopen hmode hfull => hanswer ?_⟩⟩
    · have hf : (v == 0) = false := by simpa using h
      simp only [serveOutfit, formOk_outfit hx hy hwant hv, hf]
      rfl
    · subst h
      rw [serveOutfit_of_zero hx hy hwant]
      rcases h' with hx' | hy'
      · have hnone : toFin 24 x = none := dif_neg (by omega)
        simp only [hnone]
      · have hnone : toFin 4 y = none := dif_neg (by omega)
        cases toFin 24 x <;> simp only [hnone]
    · subst h hm hl
      rw [serveOutfit_of_zero hx hy hwant]
      simp only [toFin_val]
      exact if_pos (hst.imp_left fun h => by rw [h]; exact TourState.noConfusion)
    · subst h hm hl
      have hno : ¬ (s.tours[m].state ≠ .opened ∨ s.programs[progOf m l].mode = .unset) := by
        rintro (h | h)
        · exact h hopen
        · exact hmode h
      rw [serveOutfit_of_zero hx hy hwant]
      simp only [toFin_val]
      exact (if_neg hno).trans (if_pos hfull)
  · have hfind : orderOf { s with requests := rest } n = none :=
      List.find?_eq_none.mpr fun o ho => by simpa using hnone o ho
    refine (serveHead_of_serving hs rfl).trans ?_
    rw [serveCancel_eq, hfind]
    rfl

end Sys2Proof.Machine
end

section
/-! Lists gathered member by member in an order, and the orders of pool and charge queue as orders by numbers (R118,
R137, R174). -/

namespace Sys2Proof.Machine

open Laws

variable {s t : State} {g : PortNo} {k : RackSlot} {r x y z : RecNo} {d e : ReceiverData}

/-! ### Lists gathered -/

section
variable {α : Type} {b : α → α → Bool} {R : α → α → Prop} {want : α → Bool} {x y : α} {xs l : List α}

/-- Of some members, those that are wanted put each at its place into a list. -/
def gather (b : α → α → Bool) (want : α → Bool) (xs l : List α) : List α :=
  xs.foldl (fun q x => if want x then insertBefore b x q else q) l

theorem gather_cons (b : α → α → Bool) (want : α → Bool) (x : α) (xs l : List α) :
    gather b want (x :: xs) l = gather b want xs (if want x then insertBefore b x l else l) := rfl

theorem mem_gather : y ∈ gather b want xs l ↔ y ∈ l ∨ y ∈ xs ∧ want y = true := by
  induction xs generalizing l with
  | nil => simp [gather]
  | cons x xs ih =>
    rw [gather_cons, ih]
    by_cases hw : want x = true
    · rw [if_pos hw, mem_insertBefore, List.mem_cons]
      constructor
      · rintro ((rfl | h) | ⟨h, hy⟩)
        · exact .inr ⟨.inl rfl, hw⟩
        · exact .inl h
        · exact .inr ⟨.inr h, hy⟩
      · rintro (h | ⟨rfl | h, hy⟩)
        · exact .inl (.inr h)
        · exact .inl (.inl rfl)
        · exact .inr ⟨h, hy⟩
    · rw [if_neg hw, List.mem_cons]
      refine or_congr_right (and_congr_left fun hy => ⟨.inr, fun h => h.resolve_left ?_⟩)
      rintro rfl
      exact hw hy

theorem nodup_gather (hxs : xs.Nodup) (hl : l.Nodup) (hout : ∀ x ∈ xs, want x = true → x ∉ l) :
    (gather b want xs l).Nodup := by
  induction xs generalizing l with
  | nil => exact hl
  | cons x xs ih =>
    obtain ⟨hx, hxs⟩ := List.nodup_cons.mp hxs
    rw [gather_cons]
    split
    · next hw =>
      refine ih hxs ((insertBefore_perm b x l).nodup_iff.mpr
        (List.nodup_cons.mpr ⟨hout x List.mem_cons_self hw, hl⟩)) fun y hy hwy hm => ?_
      rcases mem_insertBefore.mp hm with rfl | hm
      · exact hx hy
      · exact hout y (List.mem_cons_of_mem _ hy) hwy hm
    · exact ih hxs hl fun y hy => hout y (List.mem_cons_of_mem _ hy)

/-- A member put at its place keeps a list in order, when the order is transitive and asymmetric there. -/
theorem inOrder_insertBefore (hb : ∀ y ∈ l, b x y = true ↔ R x y) (hasymm : ∀ y ∈ l, R x y → ¬ R y x)
    (htrans : ∀ y ∈ l, ∀ z ∈ l, R z x → R x y → R z y) (hl : InOrder R l) : InOrder R (insertBefore b x l) := by
  induction l with
  | nil => exact List.pairwise_singleton _ _
  | cons y ys ih =>
    obtain ⟨hy, hys⟩ := List.pairwise_cons.mp hl
    unfold insertBefore
    split
    · next hxy =>
      have hfirst := (hb y List.mem_cons_self).mp hxy
      refine List.pairwise_cons.mpr ⟨fun z hz => ?_, hl⟩
      rcases List.mem_cons.mp hz with rfl | hz
      · exact hasymm z List.mem_cons_self hfirst
      · exact fun hzx => hy z hz (htrans y List.mem_cons_self z (List.mem_cons_of_mem _ hz) hzx hfirst)
    · next hxy =>
      refine List.pairwise_cons.mpr ⟨fun z hz => ?_, ih (fun z hz => hb z (List.mem_cons_of_mem _ hz))
        (fun z hz => hasymm z (List.mem_cons_of_mem _ hz))
        (fun z hz w hw => htrans z (List.mem_cons_of_mem _ hz) w (List.mem_cons_of_mem _ hw)) hys⟩
      rcases mem_insertBefore.mp hz with rfl | hz
      · exact mt (hb y List.mem_cons_self).mpr hxy
      · exact hy z hz

/-- Members gathered into a list in order stand in order, when the order is strict among them. -/
theorem inOrder_gather {late : α → Prop} (hb : ∀ x y, late x → late y → (b x y = true ↔ R x y))
    (hasymm : ∀ x y, late x → late y → R x y → ¬ R y x)
    (htrans : ∀ x y z, late x → late y → late z → R x y → R y z → R x z)
    (hlate : ∀ y ∈ gather b want xs l, late y) (hl : InOrder R l) : InOrder R (gather b want xs l) := by
  induction xs generalizing l with
  | nil => exact hl
  | cons x xs ih =>
    rw [gather_cons] at hlate ⊢
    refine ih hlate ?_
    have hstart : ∀ y ∈ (if want x then insertBefore b x l else l), late y := fun y hy =>
      hlate y (mem_gather.mpr (.inl hy))
    split at hstart
    · next hw =>
      have hx := hstart x (mem_insertBefore.mpr (.inl rfl))
      have hmem {y : α} (hy : y ∈ l) : late y := hstart y (mem_insertBefore.mpr (.inr hy))
      rw [if_pos hw]
      exact inOrder_insertBefore (fun y hy => hb x y hx (hmem hy)) (fun y hy => hasymm x y hx (hmem hy))
        (fun y hy z hz => htrans z x y (hmem hz) hx (hmem hy)) hl
    · next hw =>
      rw [if_neg hw]
      exact hl

end

/-! ### The orders of R118 and R137 by numbers (R174) -/

/-- How long ago the receiver docked at clock `now`, in milliseconds. -/
def ReceiverData.age (now : Clock) (d : ReceiverData) : Nat := d.dockStamp.elim 0 fun c => (now - c).toNat

/-- The record is of a receiver docked since less than 2^31 ms (R174). -/
def ReceiverData.Late (now : Clock) (d : ReceiverData) : Prop := d.place ≠ none ∧ Recent now d.dockStamp

theorem dockedOfLate_iff : DockedOfLate s r ↔ ∃ d, s.receivers[r].data = some d ∧ d.Late s.clock := Iff.rfl

theorem dockedFirst_iff_age {now : Clock} (hd : d.Late now) (he : e.Late now) : DockedFirst d e ↔
    e.age now < d.age now ∨ (d.age now = e.age now ∧ placeNumber d.place < placeNumber e.place) := by
  obtain ⟨hdp, a, ha, hanow⟩ := hd
  obtain ⟨hep, c, hc, hcnow⟩ := he
  have hsame : a = c ↔ (now - a).toNat = (now - c).toNat := by
    constructor
    · rintro rfl
      rfl
    · bv_omega
  rw [dockedFirst_iff hdp hep (by rw [hc]; exact Option.some_ne_none _), ReceiverData.age, ReceiverData.age, ha, hc]
  simp only [Option.elim_some, ne_eq, Option.some.injEq, stampBefore, hsame, earlier_iff_older hanow hcnow]
  split <;> omega

theorem poolOrder_iff (hx : s.receivers[x].data = some d) (hy : s.receivers[y].data = some e) :
    PoolOrder s x y ↔ e.battery < d.battery ∨ (d.battery = e.battery ∧ DockedFirst d e) := by
  simp only [PoolOrder, hx, hy, Option.some.injEq, exists_eq_left']

theorem chargeOrder_iff (hx : s.receivers[x].data = some d) (hy : s.receivers[y].data = some e) :
    ChargeOrder s x y ↔ (d.battery < s.limits.critical ∧ s.limits.critical ≤ e.battery) ∨
      ((d.battery < s.limits.critical ↔ e.battery < s.limits.critical) ∧ DockedFirst d e) := by
  simp only [ChargeOrder, hx, hy, Option.some.injEq, exists_eq_left']

theorem DockedOfLate.docked (h : DockedOfLate s r) : Docked s r := by
  obtain ⟨d, hd, hp, a, ha, -⟩ := h
  exact ⟨d, hd, hp, by rw [ha]; exact Option.some_ne_none _⟩

theorem poolBefore_iff_of_late (hx : DockedOfLate s x) (hy : DockedOfLate s y) :
    poolBefore s x y = true ↔ PoolOrder s x y := by
  obtain ⟨d, hd, hp, -⟩ := hx
  exact poolBefore_iff hd hp hy.docked

theorem chargeBefore_iff_of_late (hx : DockedOfLate s x) (hy : DockedOfLate s y) :
    chargeBefore s x y = true ↔ ChargeOrder s x y := by
  obtain ⟨d, hd, hp, -⟩ := hx
  exact chargeBefore_iff hd hp hy.docked

theorem poolOrder_asymm (hx : DockedOfLate s x) (hy : DockedOfLate s y) (h : PoolOrder s x y) : ¬ PoolOrder s y x := by
  obtain ⟨d, hd, hdl⟩ := dockedOfLate_iff.mp hx
  obtain ⟨e, he, hel⟩ := dockedOfLate_iff.mp hy
  rw [poolOrder_iff hd he, dockedFirst_iff_age hdl hel] at h
  rw [poolOrder_iff he hd, dockedFirst_iff_age hel hdl]
  omega

theorem poolOrder_trans (hx : DockedOfLate s x) (hy : DockedOfLate s y) (hz : DockedOfLate s z)
    (hxy : PoolOrder s x y) (hyz : PoolOrder s y z) : PoolOrder s x z := by
  obtain ⟨d, hd, hdl⟩ := dockedOfLate_iff.mp hx
  obtain ⟨e, he, hel⟩ := dockedOfLate_iff.mp hy
  obtain ⟨f, hf, hfl⟩ := dockedOfLate_iff.mp hz
  rw [poolOrder_iff hd he, dockedFirst_iff_age hdl hel] at hxy
  rw [poolOrder_iff he hf, dockedFirst_iff_age hel hfl] at hyz
  rw [poolOrder_iff hd hf, dockedFirst_iff_age hdl hfl]
  omega

theorem chargeOrder_asymm (hx : DockedOfLate s x) (hy : DockedOfLate s y) (h : ChargeOrder s x y) :
    ¬ ChargeOrder s y x := by
  obtain ⟨d, hd, hdl⟩ := dockedOfLate_iff.mp hx
  obtain ⟨e, he, hel⟩ := dockedOfLate_iff.mp hy
  rw [chargeOrder_iff hd he, dockedFirst_iff_age hdl hel] at h
  rw [chargeOrder_iff he hd, dockedFirst_iff_age hel hdl]
  omega

theorem chargeOrder_trans (hx : DockedOfLate s x) (hy : DockedOfLate s y) (hz : DockedOfLate s z)
    (hxy : ChargeOrder s x y) (hyz : ChargeOrder s y z) : ChargeOrder s x z := by
  obtain ⟨d, hd, hdl⟩ := dockedOfLate_iff.mp hx
  obtain ⟨e, he, hel⟩ := dockedOfLate_iff.mp hy
  obtain ⟨f, hf, hfl⟩ := dockedOfLate_iff.mp hz
  rw [chargeOrder_iff hd he, dockedFirst_iff_age hdl hel] at hxy
  rw [chargeOrder_iff he hf, dockedFirst_iff_age hel hfl] at hyz
  rw [chargeOrder_iff hd hf, dockedFirst_iff_age hdl hfl]
  omega

end Sys2Proof.Machine
end

section
/-! The end of an inventory: receivers reconciled, UNKEYs owed, charge queue and pool (R147). -/

namespace Sys2Proof.Machine

open Laws

variable {s t u v : State} {g h : PortNo} {k j : RackSlot} {r y : RecNo} {d : ReceiverData} {p : ProgNo}

/-! ### Receivers reconciled (R147 step 1) -/

/-- A change that leaves confirmed receivers confirmed, and makes no order. -/
structure Tidied (s t : State) : Prop where
  frame : FleetFrame s t
  confirmed : ∀ (y : RecNo) (d' : ReceiverData), t.receivers[y].data = some d' →
    ∃ d, s.receivers[y].data = some d ∧ (d.unconfirmed = false → d'.unconfirmed = false)
  no_orders : s.outfits = [] → t.outfits = []

theorem Tidied.refl (s : State) : Tidied s s := ⟨fleetFrame_of_eq rfl, fun _ d hd => ⟨d, hd, id⟩, id⟩

theorem Tidied.trans (h : Tidied s t) (h' : Tidied t u) : Tidied s u where
  frame := h.frame.trans h'.frame
  confirmed y d' hd' := by
    obtain ⟨d, hd, hdd'⟩ := h'.confirmed y d' hd'
    obtain ⟨e, he, hed⟩ := h.confirmed y d hd
    exact ⟨e, he, hdd' ∘ hed⟩
  no_orders := h'.no_orders ∘ h.no_orders

theorem Serviced.tidied (h : Serviced s t) : Tidied s t where
  frame := h.fleetFrame
  confirmed y d' hd' := by
    obtain ⟨d, hd, hst⟩ := h.standing.symm.of_some hd'
    obtain ⟨-, -, -, -, -, -, hconfirmed⟩ := standing_eq_iff.mp hst
    exact ⟨d, hd, fun h => hconfirmed ▸ h⟩
  no_orders := h.orders_nil

theorem left_confirmed {e : ReceiverData} (hc : d.unconfirmed = false) (he : d.left s = some e) :
    e.unconfirmed = false := by
  unfold ReceiverData.left at he
  split at he
  case h_1 | h_2 | h_4 | h_5 => cases he; rfl
  case h_3 => cases he
  case h_6 | h_7 | h_8 => cases he; exact hc

theorem tidied_gone (hs : s.receivers[r].data = some { d with charging := false }) : Tidied s (gone r d s) where
  frame := fleetFrame_of_eq rfl
  confirmed y d' hd' := by
    by_cases hy : r = y
    · subst hy
      rw [show (gone r d s).receivers[r] = _ from modReceiver_self s r _] at hd'
      exact ⟨_, hs, fun hc => left_confirmed (s := s) (d := d) hc hd'⟩
    · rw [show (gone r d s).receivers[y] = _ from modReceiver_ne s hy _] at hd'
      exact ⟨d', hd', id⟩
  no_orders := id

/-- What the receiver's own part of an undock leaves of the others and of the racks. -/
theorem undockEffect_tidied (hs : s.receivers[r].data = some { d with charging := false }) (g : PortNo) :
    Tidied s (undockEffect r d s) ∧ RackKept s.racks[g] (undockEffect r d s).racks[g] := by
  have hgone := tidied_gone hs
  by_cases hk : d.state = .keying
  · have hserved := (serviced_modOrderOf (gone r d s) d.outfit (f := OutfitOrder.lostOne) fun _ => rfl).trans
      (serviced_runSelection _)
    rw [undockEffect_of_keying hs hk]
    exact ⟨hgone.trans hserved.tidied, hserved.racks g⟩
  · by_cases hout : d.state = .issued ∨ d.state = .overdue ∨ d.state = .stray
    · have hnone : undockEffect r d s = s := by
        unfold undockEffect
        rcases hout with h | h | h <;> simp only [h]
      rw [hnone]
      exact ⟨Tidied.refl s, RackKept.refl _⟩
    · obtain ⟨hi, ho, hy⟩ := not_or.mp hout |>.imp_right not_or.mp
      rcases undockEffect_of_other hs hk hi ho hy with he | ⟨-, p, he⟩
      · rw [he]
        exact ⟨hgone, RackKept.refl _⟩
      · obtain ⟨hrec, -, horders, hracks⟩ := (onlyFollowers_changeCounts p
          (fun x => { x with keyed := x.keyed - 1, issued := x.issued + 1 }) (gone r d s)).fleet
        rw [he, countIssue]
        refine ⟨hgone.trans ⟨fleetFrame_changeCounts p _ _, fun y d' hd' => ⟨d', by rwa [hrec] at hd', id⟩,
          fun h => by rwa [horders]⟩, ?_⟩
        rw [hracks]
        exact RackKept.refl _

theorem vacant_occupant (k j : RackSlot) (r : RecNo) (e : Rack) :
    (e.vacant k r).slots[j].occupant = if k = j then .empty else e.slots[j].occupant := by
  rw [Rack.vacant, getElem_set_ite]
  split <;> rfl

theorem tidied_vacated (hd : s.receivers[r].data = some d) (g : PortNo) (k : RackSlot) :
    Tidied s (vacated g k r s) where
  frame := by
    rw [vacated_eq]
    exact fleetFrame_of_eq rfl
  confirmed y d' hd' := by
    by_cases hy : r = y
    · subst hy
      rw [vacated_data hd] at hd'
      cases hd'
      exact ⟨d, hd, id⟩
    · rw [vacated_eq] at hd'
      exact ⟨d', (congrArg Receiver.data (noteReceiver_ne s hy _)).symm.trans hd', id⟩
  no_orders h := by rwa [vacated_eq]

/-- A receiver undocked: its slot is empty, every other slot holds what it held. -/
theorem undockReceiver_tidied (hd : s.receivers[r].data = some d) (g : PortNo) (k : RackSlot) :
    Tidied s (undockReceiver g k r s) ∧ ∀ j : RackSlot, (undockReceiver g k r s).racks[g].slots[j].occupant =
      if k = j then .empty else s.racks[g].slots[j].occupant := by
  obtain ⟨heffect, hrack⟩ := undockEffect_tidied (vacated_data hd g k) g
  have hgranted := granted_issueGrants g (undockEffect r d (vacated g k r s))
  rw [undockReceiver_eq hd]
  refine ⟨((tidied_vacated hd g k).trans heffect).trans hgranted.serviced.tidied, fun j => ?_⟩
  rw [(hgranted.rackKept g).2 j, hrack.2 j, vacated_rack, vacant_occupant]

theorem reconcile_eq (g : PortNo) (j : RackSlot) (x : State) : reconcile g j x =
    match x.racks[g].slots[j].occupant with
    | .receiver r => if x.receivers[r].data.any (·.unconfirmed) then undockReceiver g j r x else x
    | .empty | .unregistered => x := by
  unfold reconcile
  cases x.racks[g].slots[j].occupant with
  | empty | unregistered => rfl
  | receiver r =>
    have hany : ((x.receivers[r].data.map (·.unconfirmed)).getD false) = x.receivers[r].data.any (·.unconfirmed) := by
      cases x.receivers[r].data <;> rfl
    dsimp only
    rw [hany]

/-- At a slot either nothing is done, and its receiver is confirmed, or the receiver is undocked. -/
theorem reconcile_cases (g : PortNo) (k : RackSlot) (s : State) :
    (reconcile g k s = s ∧ ∀ r d, InSlot s g k r d → d.unconfirmed = false) ∨
      ∃ r d, InSlot s g k r d ∧ d.unconfirmed = true ∧ reconcile g k s = undockReceiver g k r s := by
  rw [reconcile_eq]
  cases hk : s.racks[g].slots[k].occupant with
  | empty | unregistered =>
    refine .inl ⟨rfl, fun r d hin => ?_⟩
    rw [hin.1] at hk
    cases hk
  | receiver r =>
    cases hd : s.receivers[r].data with
    | none =>
      refine .inl ⟨by simp only [hd, Option.any_none]; rfl, fun r' d hin => ?_⟩
      obtain ⟨hocc, hd'⟩ := hin
      rw [hocc] at hk
      cases hk
      rw [hd] at hd'
      cases hd'
    | some d =>
      by_cases hc : d.unconfirmed = true
      · exact .inr ⟨r, d, ⟨hk, hd⟩, hc, by simp only [hd, Option.any_some, hc, if_true]⟩
      · refine .inl ⟨by simp only [hd, Option.any_some, if_neg hc], fun r' d' hin => ?_⟩
        obtain ⟨hocc, hd'⟩ := hin
        rw [hocc] at hk
        cases hk
        rw [hd] at hd'
        cases hd'
        exact Bool.eq_false_iff.mpr hc

theorem tidied_reconcile (g : PortNo) (k : RackSlot) (s : State) : Tidied s (reconcile g k s) := by
  rcases reconcile_cases g k s with ⟨he, -⟩ | ⟨r, d, hin, -, he⟩
  · rw [he]
    exact Tidied.refl s
  · rw [he]
    exact (undockReceiver_tidied hin.2 g k).1

/-- The receiver in a slot is confirmed, if there is one. -/
def ConfirmedAt (g : PortNo) (j : RackSlot) (s : State) : Prop := ∀ r d, InSlot s g j r d → d.unconfirmed = false

theorem Tidied.confirmedAt (h : Tidied s t) (hocc : t.racks[g].slots[j].occupant = s.racks[g].slots[j].occupant)
    (hc : ConfirmedAt g j s) : ConfirmedAt g j t := by
  intro r d hin
  obtain ⟨e, he, hed⟩ := h.confirmed r d hin.2
  exact hed (hc r e ⟨hocc ▸ hin.1, he⟩)

theorem confirmedAt_of_empty (h : s.racks[g].slots[j].occupant = .empty) : ConfirmedAt g j s := fun r d hin => by
  have := h.symm.trans hin.1
  cases this

theorem confirmedAt_reconcile (g : PortNo) (k : RackSlot) (s : State) : ConfirmedAt g k (reconcile g k s) := by
  rcases reconcile_cases g k s with ⟨he, hc⟩ | ⟨r, d, hin, -, he⟩
  · rw [he]
    exact hc
  · rw [he]
    exact confirmedAt_of_empty (((undockReceiver_tidied hin.2 g k).2 k).trans (if_pos rfl))

theorem ConfirmedAt.reconcile (h : ConfirmedAt g j s) (k : RackSlot) : ConfirmedAt g j (reconcile g k s) := by
  rcases reconcile_cases g k s with ⟨he, -⟩ | ⟨r, d, hin, -, he⟩
  · rwa [he]
  · obtain ⟨htidy, hslots⟩ := undockReceiver_tidied hin.2 g k
    rw [he]
    by_cases hkj : k = j
    · exact confirmedAt_of_empty ((hslots j).trans (if_pos hkj))
    · exact htidy.confirmedAt ((hslots j).trans (if_neg hkj)) h

/-- The hub once a rack's receivers are reconciled. -/
def reconciled (g : PortNo) (s : State) : State := forEach (fins 40) (reconcile g) s

theorem tidied_reconciled (g : PortNo) (s : State) : Tidied s (reconciled g s) :=
  forEach_keeps (f := reconcile g) (P := Tidied s) _ (fun k t ht => ht.trans (tidied_reconcile g k t)) s
    (Tidied.refl s)

theorem confirmedAt_reconciled (g : PortNo) (j : RackSlot) (s : State) : ConfirmedAt g j (reconciled g s) :=
  forEach_settles (f := reconcile g) (Q := ConfirmedAt g) (mem_fins j) (fun t => confirmedAt_reconcile g j t)
    (fun k _ ht => ht.reconcile k) s

/-- A confirmed receiver stays in its slot. -/
theorem reconciled_of_confirmed (hocc : s.racks[g].slots[j].occupant = .receiver r)
    (hc : ∀ d, s.receivers[r].data = some d → d.unconfirmed = false) :
    (reconciled g s).racks[g].slots[j].occupant = .receiver r := by
  refine (forEach_keeps (f := reconcile g) (P := fun t => t.racks[g].slots[j].occupant = .receiver r ∧
    ∀ d, t.receivers[r].data = some d → d.unconfirmed = false) _ (fun k t ht => ?_) s ⟨hocc, hc⟩).1
  obtain ⟨hocc, hc⟩ := ht
  rcases reconcile_cases g k t with ⟨he, -⟩ | ⟨y, d, hin, hun, he⟩
  · rw [he]
    exact ⟨hocc, hc⟩
  · obtain ⟨htidy, hslots⟩ := undockReceiver_tidied hin.2 g k
    have hkj : k ≠ j := by
      rintro rfl
      have hy : y = r := by
        have := hin.1.symm.trans hocc
        cases this
        rfl
      subst hy
      exact Bool.false_ne_true ((hc d hin.2).symm.trans hun)
    rw [he, hslots j, if_neg hkj]
    refine ⟨hocc, fun d hd => ?_⟩
    obtain ⟨e, he', hed⟩ := htidy.confirmed r d hd
    exact hed (hc e he')

end Sys2Proof.Machine
end

section
/-! What a rack that comes online is given: its UNKEYs, its charge queue, its part of the pool (R147). -/

namespace Sys2Proof.Machine

open Laws

variable {s t u v : State} {g h : PortNo} {k j : RackSlot} {r y : RecNo} {d : ReceiverData} {rs : List RecNo}

/-! ### The UNKEYs owed (R147 step 2) -/

/-- The slot owes an UNKEY, and its receiver is DOCKED. -/
def owing (s : State) (g : PortNo) (j : RackSlot) : Bool :=
  s.racks[g].slots[j].unkeyOwed && (match s.racks[g].slots[j].occupant with
    | .receiver r => s.receivers[r].data.any fun d => d.state == .dockedCharging || d.state == .dockedReady
    | .empty | .unregistered => false)

theorem placeOwed_eq (g : PortNo) (k : RackSlot) (s : State) :
    placeOwed g k s = if owing s g k then s.modRack g (Rack.placeUnkey k) else s := by
  unfold placeOwed owing
  cases s.racks[g].slots[k].occupant with
  | empty | unregistered => simp
  | receiver r =>
    obtain hd | ⟨d, hd⟩ := Option.eq_none_or_eq_some s.receivers[r].data
    · simp only [hd, Option.any_none, Bool.and_false, Bool.false_eq_true, if_false]
    · simp only [hd, Option.any_some, Bool.and_eq_true, Bool.or_eq_true, beq_iff_eq]
      exact if_congr and_comm rfl rfl

/-- A rack with key orders appended. -/
def Rack.appended (e : Rack) (l : List KeyOrder) : Rack := { e with keyQueue := e.keyQueue ++ l }

/-- An order that is not among those appended waits there only if it waited before. -/
theorem mem_waiting_appended {e : Rack} {l : List KeyOrder} {o : KeyOrder} (ho : o ∉ l) :
    o ∈ (e.appended l).waiting ↔ o ∈ e.waiting := by
  unfold Rack.waiting Rack.appended
  dsimp only
  split
  · cases e.keyQueue with
    | nil => simpa using fun h => ho (List.mem_of_mem_tail h)
    | cons a q => simp [ho]
  · simp [ho]

/-- The UNKEY of a slot that owes it already is the queue's alone. -/
theorem placeUnkey_of_owed {e : Rack} (hk : e.slots[k].unkeyOwed = true) :
    e.placeUnkey k = if .unkey k ∈ e.waiting then e else e.appended [.unkey k] := by
  have hslot : ({ e.slots[k] with unkeyOwed := true } : SlotEntry) = e.slots[k] := by rw [← hk]
  have hslots : e.slots.set k { e.slots[k] with unkeyOwed := true } = e.slots := by
    rw [hslot]
    simp
  rw [placeUnkey_eq, hslots, keyQueue_placeUnkey]
  split <;> rfl

theorem appended_nil (e : Rack) : e.appended [] = e := by rw [Rack.appended, List.append_nil]

theorem appended_appended (e : Rack) (l l' : List KeyOrder) : (e.appended l).appended l' = e.appended (l ++ l') := by
  simp only [Rack.appended, List.append_assoc]

theorem modRack_congr (s : State) {f f' : Rack → Rack} (h : f s.racks[g] = f' s.racks[g]) :
    s.modRack g f = s.modRack g f' := by
  rw [State.modRack, h, State.modRack]

theorem modRack_of_eq (s : State) {f : Rack → Rack} (h : f s.racks[g] = s.racks[g]) : s.modRack g f = s := by
  rw [State.modRack, h]
  simp

theorem owing_appended (s : State) (g : PortNo) (f : Rack → List KeyOrder) (j : RackSlot) :
    owing (s.modRack g fun e => e.appended (f e)) g j = owing s g j := by
  unfold owing
  rw [modRack_racks_self]
  rfl

/-- The UNKEYs of a rack's slots that owe one join the key queue, unless one waits there. -/
theorem forEach_placeOwed {ks : List RackSlot} (hks : ks.Nodup) (g : PortNo) (s : State) :
    forEach ks (placeOwed g) s = s.modRack g fun e => e.appended
      ((ks.filter fun j => owing s g j && !e.waiting.contains (.unkey j)).map .unkey) := by
  induction ks using List.reverseRecOn with
  | nil => exact (modRack_of_eq s (appended_nil _)).symm
  | append_singleton ks k ih =>
    rw [List.nodup_append] at hks
    obtain ⟨hks, -, hdisjoint⟩ := hks
    have hk : k ∉ ks := fun hm => hdisjoint k hm k List.mem_cons_self rfl
    rw [forEach_append, ih hks]
    show placeOwed g k _ = _
    rw [placeOwed_eq, owing_appended]
    by_cases ho : owing s g k = true
    · have howed : s.racks[g].slots[k].unkeyOwed = true := (Bool.and_eq_true_iff.mp ho).1
      rw [if_pos ho, modRack_modRack]
      refine modRack_congr s ?_
      have hnot : KeyOrder.unkey k ∉ (ks.filter fun j =>
          owing s g j && !s.racks[g].waiting.contains (.unkey j)).map .unkey := by
        intro hm
        obtain ⟨j, hj, hjk⟩ := List.mem_map.mp hm
        cases hjk
        exact hk (List.mem_of_mem_filter hj)
      rw [placeUnkey_of_owed (by exact howed), List.filter_append, List.map_append, ← appended_appended]
      by_cases hw : KeyOrder.unkey k ∈ s.racks[g].waiting
      · have hno : ([k].filter fun j => owing s g j && !s.racks[g].waiting.contains (.unkey j)) = [] := by
          simpa [ho] using hw
        rw [if_pos ((mem_waiting_appended hnot).mpr hw), hno, List.map_nil, appended_nil]
      · have hyes : ([k].filter fun j => owing s g j && !s.racks[g].waiting.contains (.unkey j)) = [k] := by
          simpa [ho] using hw
        rw [if_neg (mt (mem_waiting_appended hnot).mp hw), hyes]
        rfl
    · rw [if_neg ho]
      refine modRack_congr s ?_
      simp [ho]

/-! ### The charge queue (R147 step 4) -/

/-- The receiver belongs in a charge queue (R137). -/
def wanting (s : State) (r : RecNo) : Bool := s.receivers[r].data.any wantsCharge

/-- A charge queue with the receiver at its place, if it belongs there. -/
def joined (s : State) (r : RecNo) (l : List RecNo) : List RecNo :=
  if wanting s r then insertBefore (chargeBefore s) r l else l

theorem chargeSettle_of_not_mem (hon : s.racks[g].online = true) (hr : r ∉ s.racks[g].chargeQueue) :
    chargeSettle g r s = s.modRack g fun e => { e with chargeQueue := joined s r e.chargeQueue } := by
  have hfilter : (s.racks[g].chargeQueue.filter fun x => x ≠ r) = s.racks[g].chargeQueue :=
    List.filter_eq_self.mpr fun x hx => decide_eq_true fun h => hr (h ▸ hx)
  rw [chargeSettle_eq_modRack, State.modRack, State.modRack, queueWith, hon, hfilter]
  rfl

/-- The receivers that belong in the charge queue are put there each at its place. -/
theorem forEach_chargeSettle (hrs : rs.Nodup) (hon : s.racks[g].online = true)
    (hout : ∀ r ∈ rs, r ∉ s.racks[g].chargeQueue) : forEach rs (chargeSettle g) s =
      s.modRack g fun e => { e with chargeQueue := gather (chargeBefore s) (wanting s) rs e.chargeQueue } := by
  induction rs generalizing s with
  | nil => exact (modRack_of_eq s rfl).symm
  | cons r rs ih =>
    obtain ⟨hr, hrs⟩ := List.nodup_cons.mp hrs
    have hstep := chargeSettle_of_not_mem hon (hout r List.mem_cons_self)
    have hbefore : chargeBefore (chargeSettle g r s) = chargeBefore s := by rw [hstep]; rfl
    have hwanting : wanting (chargeSettle g r s) = wanting s := by rw [hstep]; rfl
    have hrack := modRack_racks_self s g fun e => { e with chargeQueue := joined s r e.chargeQueue }
    rw [← hstep] at hrack
    rw [forEach_cons, ih hrs (by rw [hrack]; exact hon) fun y hy hm => ?_]
    · rw [hbefore, hwanting, hstep, modRack_modRack]
      rfl
    · rw [hrack] at hm
      have hy' := hout y (List.mem_cons_of_mem _ hy)
      dsimp only at hm
      unfold joined at hm
      split at hm
      · rcases mem_insertBefore.mp hm with rfl | hm
        · exact hr hy
        · exact hy' hm
      · exact hy' hm

theorem slotRecords_eq (e : Rack) : (slotRecords e).map (·.2) = (List.finRange 40).filterMap fun k =>
    match e.slots[k].occupant with
    | .receiver r => some r
    | .empty | .unregistered => none := by
  rw [slotRecords, fins_eq_finRange, List.map_filterMap]
  refine List.filterMap_congr fun k _ => ?_
  cases e.slots[k].occupant <;> rfl

theorem mem_slotRecords {e : Rack} :
    r ∈ (slotRecords e).map (·.2) ↔ ∃ k : RackSlot, e.slots[k].occupant = .receiver r := by
  rw [slotRecords_eq, List.mem_filterMap]
  refine exists_congr fun k => ?_
  cases e.slots[k].occupant <;> simp

theorem nodup_slotRecords {e : Rack} (h : ∀ (i j : RackSlot) (r : RecNo), e.slots[i].occupant = .receiver r →
    e.slots[j].occupant = .receiver r → i = j) : ((slotRecords e).map (·.2)).Nodup := by
  rw [slotRecords_eq]
  refine (List.nodup_finRange 40).filterMap fun i j r hi hj => ?_
  have hof {k : RackSlot} (hk : r ∈ (match e.slots[k].occupant with
      | .receiver r => some r
      | .empty | .unregistered => none : Option RecNo)) : e.slots[k].occupant = .receiver r := by
    cases hocc : e.slots[k].occupant with
    | empty | unregistered => rw [hocc] at hk; cases hk
    | receiver x => rw [hocc] at hk; cases hk; rfl
  exact h i j r (hof hi) (hof hj)

/-! ### The pool (R147 step 5) -/

/-- The receiver is DOCKED_READY. -/
def isReady (s : State) (r : RecNo) : Bool := s.receivers[r].data.any fun d => d.state == .dockedReady

/-- The pool with the receiver at its place, if it is DOCKED_READY. -/
def pooled (s : State) (r : RecNo) : List RecNo := if isReady s r then insertBefore (poolBefore s) r s.pool else s.pool

theorem enterIfReady_eq (ho : s.outfits = []) (hp : placeOf s r = some (g, k)) (hon : s.racks[g].online = true) :
    enterIfReady r s = s.withPool (pooled s r) := by
  rw [placeOf_eq] at hp
  obtain ⟨d, hd, hp⟩ := Option.bind_eq_some_iff.mp hp
  have hready : isReady s r = true ↔ s.receivers[r].data.map (·.state) = some .dockedReady := by
    rw [isReady, hd, Option.any_some, beq_iff_eq, Option.map_some, Option.some.injEq]
  unfold enterIfReady pooled
  by_cases hr : isReady s r = true
  · rw [if_pos (hready.mp hr), if_pos hr, enterPool_of_no_orders hd hp ho, if_pos hon]
    rfl
  · rw [if_neg (mt hready.mpr hr), if_neg hr]
    rfl

/-- The DOCKED_READY receivers of online racks enter the pool each at its place, in a hub without outfit orders. -/
theorem forEach_enterIfReady (ho : s.outfits = [])
    (hplace : ∀ r ∈ rs, ∃ h k, placeOf s r = some (h, k) ∧ s.racks[h].online = true) :
    forEach rs enterIfReady s = s.withPool (gather (poolBefore s) (isReady s) rs s.pool) := by
  induction rs generalizing s with
  | nil => rfl
  | cons r rs ih =>
    obtain ⟨h, k, hp, hon⟩ := hplace r List.mem_cons_self
    rw [forEach_cons, enterIfReady_eq ho hp hon]
    refine (ih (s := s.withPool (pooled s r)) ho fun y hy => hplace y (List.mem_cons_of_mem _ hy)).trans ?_
    rw [gather_cons]
    rfl

end Sys2Proof.Machine
end

section
/-! INVENTORY_DEADLINE_EXPIRY and INVENTORY_END (R146, R147). -/

namespace Sys2Proof.Machine

open Laws

variable {s t u v w : State} {g h : PortNo} {k j : RackSlot} {r y : RecNo} {d : ReceiverData} {rs : List RecNo}

/-! ### The steps of R147 -/

/-- The rack online, without inventory. -/
def Rack.opened (e : Rack) : Rack := { e with inventory := false, inventoryDeadline := none, online := true }

/-- The hub once the UNKEYs are placed that the rack's slots owe (R147 steps 1 and 2). -/
def owedPlaced (g : PortNo) (s : State) : State := forEach (fins 40) (placeOwed g) (reconciled g s)

/-- The hub once the rack is online, before its charge queue is built (R147 steps 1 to 3). -/
def broughtUp (g : PortNo) (s : State) : State := (owedPlaced g s).modRack g Rack.opened

/-- The hub before the rack's receivers enter the pool (R147 steps 1 to 4). -/
def recharged (g : PortNo) (s : State) : State := issueGrants g (chargeAll g (broughtUp g s))

theorem inventoryDone_of_running (h : s.racks[g].inventory = true) :
    inventoryDone g s = forEach (recordsIn (recharged g s) g) enterIfReady (recharged g s) := by
  have hopened : (fun e : Rack => { e with inventory := false, inventoryDeadline := none, online := true }) =
      Rack.opened := rfl
  unfold inventoryDone
  rw [if_pos h, hopened, recharged, broughtUp, owedPlaced, reconciled]

theorem inventoryDone_of_none (h : s.racks[g].inventory = false) : inventoryDone g s = s :=
  if_neg (Bool.eq_false_iff.mp h)

/-! ### What stands whatever the orders -/

theorem serviced_placeOwed (g : PortNo) (k : RackSlot) (s : State) : Serviced s (placeOwed g k s) := by
  rw [placeOwed_eq]
  exact ite_keeps (P := Serviced s) (serviced_modRack s g (rackKept_placeUnkey k _)) (Serviced.refl s)

theorem serviced_chargeAll (g : PortNo) (s : State) : Serviced s (chargeAll g s) :=
  forEach_keeps (f := chargeSettle g) (P := Serviced s) _ (fun r t ht => ht.trans (serviced_chargeSettle g r t)) s
    (Serviced.refl s)

theorem serviced_enterIfReady (r : RecNo) (s : State) : Serviced s (enterIfReady r s) :=
  ite_keeps (P := Serviced s) (serviced_enterPool r s) (Serviced.refl s)

theorem serviced_inventoryDone (h : s.racks[g].inventory = true) :
    Serviced (broughtUp g s) (sendKeys (inventoryDone g s)) := by
  rw [inventoryDone_of_running h]
  exact (((serviced_chargeAll g _).trans (serviced_issueGrants g _)).trans
    (forEach_keeps (f := enterIfReady) (P := Serviced (recharged g s)) _
      (fun r t ht => ht.trans (serviced_enterIfReady r t)) _ (Serviced.refl _))).trans (serviced_sendKeys _)

theorem serviced_owedPlaced (g : PortNo) (s : State) : Serviced (reconciled g s) (owedPlaced g s) :=
  forEach_keeps (f := placeOwed g) (P := Serviced _) _ (fun k t ht => ht.trans (serviced_placeOwed g k t)) _
    (Serviced.refl _)

theorem opened_eq (e : Rack) : e.opened = { e with inventory := false, inventoryDeadline := none, online := true } :=
  rfl

theorem opened_occupant (e : Rack) (j : RackSlot) : e.opened.slots[j].occupant = e.slots[j].occupant := rfl

theorem broughtUp_racks (g : PortNo) (s : State) : (broughtUp g s).racks[g] = (owedPlaced g s).racks[g].opened :=
  modRack_racks_self _ g _

theorem broughtUp_occupant (g : PortNo) (j : RackSlot) (s : State) :
    (broughtUp g s).racks[g].slots[j].occupant = (reconciled g s).racks[g].slots[j].occupant := by
  rw [broughtUp_racks, opened_occupant, ((serviced_owedPlaced g s).racks g).2 j]

theorem tidied_opened (g : PortNo) (s : State) : Tidied s (s.modRack g Rack.opened) :=
  ⟨fleetFrame_of_eq rfl, fun _ d hd => ⟨d, hd, id⟩, id⟩

theorem tidied_broughtUp (g : PortNo) (s : State) : Tidied (reconciled g s) (broughtUp g s) := by
  rw [broughtUp]
  exact (serviced_owedPlaced g s).tidied.trans (tidied_opened g _)

theorem RackKept.inventory {e e' : Rack} (h : RackKept e e') : e'.inventory = e.inventory :=
  congrArg (fun x => x.2.1) h.1

theorem RackKept.inventoryDeadline {e e' : Rack} (h : RackKept e e') : e'.inventoryDeadline = e.inventoryDeadline :=
  congrArg (fun x => x.2.2.1) h.1

/-- No receiver of the rack is left unconfirmed (R147 step 1). -/
theorem confirmedAt_broughtUp (g : PortNo) (j : RackSlot) (s : State) : ConfirmedAt g j (broughtUp g s) :=
  (tidied_broughtUp g s).confirmedAt (broughtUp_occupant g j s) (confirmedAt_reconciled g j s)

/-! ### The outcome without outfit orders -/

theorem SameStanding.dockedOfLate (hs : SameStanding s t) (hc : t.clock = s.clock) (h : DockedOfLate s r) :
    DockedOfLate t r := by
  obtain ⟨d, hd, hp, hdock⟩ := h
  obtain ⟨e, he, hst⟩ := hs.of_some hd
  obtain ⟨-, hplace, hstamp, -⟩ := standing_eq_iff.mp hst
  exact ⟨e, he, hplace ▸ hp, by rw [hstamp, hc]; exact hdock⟩

theorem Granted.isReady (hg : Granted g s t) : isReady t = isReady s := by
  funext r
  unfold Machine.isReady
  rcases hg.receivers r with h | ⟨-, h⟩
  · rw [h]
  · rw [h]
    cases s.receivers[r].data <;> rfl

/-- The key orders a rack is left with: an UNKEY more for each slot that owes one. -/
def owedOrders (u : State) (g : PortNo) : List KeyOrder :=
  ((List.finRange 40).filter fun j => owing u g j && !u.racks[g].waiting.contains (.unkey j)).map .unkey

/-- The receivers that get a place in the charge queue of a rack that came online, in its order. -/
def chargeList (u : State) (g : PortNo) : List RecNo :=
  gather (chargeBefore u) (wanting u) ((slotRecords u.racks[g]).map (·.2)) []

theorem broughtUp_eq (hu : u = reconciled g s) : broughtUp g s = u.modRack g fun e => { e with
    inventory := false, inventoryDeadline := none, online := true, keyQueue := e.keyQueue ++ owedOrders u g } := by
  have hnodup : (fins 40).Nodup := by rw [fins_eq_finRange]; exact List.nodup_finRange 40
  rw [broughtUp, owedPlaced, ← hu, forEach_placeOwed hnodup, modRack_modRack, fins_eq_finRange]
  exact modRack_congr u rfl

theorem chargeAll_broughtUp (hu : u = reconciled g s) (hq : u.racks[g].chargeQueue = [])
    (hdistinct : ∀ (i j : RackSlot) (r : RecNo), u.racks[g].slots[i].occupant = .receiver r →
      u.racks[g].slots[j].occupant = .receiver r → i = j) :
    chargeAll g (broughtUp g s) = { u with racks := u.racks.set g { u.racks[g] with
      inventory := false, inventoryDeadline := none, online := true
      keyQueue := u.racks[g].keyQueue ++ owedOrders u g, chargeQueue := chargeList u g } } := by
  have hup := broughtUp_eq hu
  have hrack : (broughtUp g s).racks[g] = { u.racks[g] with
      inventory := false, inventoryDeadline := none, online := true
      keyQueue := u.racks[g].keyQueue ++ owedOrders u g } := by
    rw [hup, modRack_racks_self]
  have hbefore : chargeBefore (broughtUp g s) = chargeBefore u := by rw [hup]; rfl
  have hwanting : wanting (broughtUp g s) = wanting u := by rw [hup]; rfl
  have hrecords : slotRecords (broughtUp g s).racks[g] = slotRecords u.racks[g] := by rw [hrack]; rfl
  rw [chargeAll, forEach_chargeSettle (by rw [hrecords]; exact nodup_slotRecords hdistinct) (by rw [hrack])
    fun r _ hm => by rw [hrack, hq] at hm; exact absurd hm List.not_mem_nil]
  rw [hbefore, hwanting, hrecords, hup, modRack_modRack]
  refine (modRack_congr u ?_ : u.modRack g _ = u.modRack g fun e => { e with
    inventory := false, inventoryDeadline := none, online := true
    keyQueue := e.keyQueue ++ owedOrders u g, chargeQueue := chargeList u g })
  dsimp only
  rw [hq]
  rfl

/-- The charge queue of R147 step 4: who stands in it, once each, and in the order of R137. -/
theorem chargeList_spec (hdistinct : ∀ (i j : RackSlot) (r : RecNo), u.racks[g].slots[i].occupant = .receiver r →
    u.racks[g].slots[j].occupant = .receiver r → i = j) :
    (chargeList u g).Nodup ∧
    (∀ r, r ∈ chargeList u g ↔ ∃ j d, InSlot u g j r d ∧ d.battery < 100 ∧ d.charging = false ∧ d.state ≠ .faulty) ∧
    ((∀ r ∈ chargeList u g, DockedOfLate u r) → InOrder (ChargeOrder u) (chargeList u g)) := by
  refine ⟨nodup_gather (nodup_slotRecords hdistinct) List.nodup_nil fun _ _ _ => List.not_mem_nil, fun r => ?_,
    fun hlate => ?_⟩
  · have hwant : wanting u r = true ↔ ∃ d, u.receivers[r].data = some d ∧ wantsCharge d = true := by
      rw [wanting]
      cases u.receivers[r].data <;> simp
    rw [chargeList, mem_gather, mem_slotRecords, hwant]
    constructor
    · rintro (hnil | ⟨⟨j, hj⟩, d, hd, hw⟩)
      · exact absurd hnil List.not_mem_nil
      · exact ⟨j, d, ⟨hj, hd⟩, wantsCharge_iff.mp hw⟩
    · rintro ⟨j, d, ⟨hj, hd⟩, hw⟩
      exact .inr ⟨⟨j, hj⟩, d, hd, wantsCharge_iff.mpr hw⟩
  · exact inOrder_gather (late := DockedOfLate u) (fun x y hx hy => chargeBefore_iff_of_late hx hy)
      (fun x y hx hy => chargeOrder_asymm hx hy) (fun x y z hx hy hz => chargeOrder_trans hx hy hz) hlate
      List.Pairwise.nil

/-- The pool of R147 step 5. -/
def poolList (u v : State) (g : PortNo) : List RecNo := gather (poolBefore v) (isReady v) (recordsIn v g) u.pool

theorem poolList_spec (hg : Granted g w v) (hw : w.receivers = u.receivers) (hclock : w.clock = u.clock)
    (hready : ∀ r, (∃ d, u.receivers[r].data = some d ∧ d.state = .dockedReady ∧ d.place.map (·.1) = some g) →
      r ∉ u.pool) :
    (∀ r, r ∈ poolList u v g ↔ r ∈ u.pool ∨
      ∃ d, u.receivers[r].data = some d ∧ d.state = .dockedReady ∧ d.place.map (·.1) = some g) ∧
    (u.pool.Nodup → (poolList u v g).Nodup) ∧
    ((∀ r ∈ poolList u v g, DockedOfLate u r) → InOrder (PoolOrder u) u.pool →
      InOrder (PoolOrder u) (poolList u v g)) := by
  have hstanding : SameStanding u v := fun r => by rw [hg.standing r, hw]
  have hvclock : v.clock = u.clock := by rw [hg.eq, hclock]
  have hmem (r : RecNo) : r ∈ recordsIn v g ∧ isReady v r = true ↔
      ∃ d, u.receivers[r].data = some d ∧ d.state = .dockedReady ∧ d.place.map (·.1) = some g := by
    have hisReady : isReady v r = u.receivers[r].data.any fun d => d.state == .dockedReady := by
      rw [hg.isReady, isReady, hw]
    have hrecords : r ∈ recordsIn v g ↔ r ∈ recordsIn u g := by
      rw [recordsIn, recordsIn, List.mem_filter, List.mem_filter, hstanding.placeOf r]
    rw [hrecords, mem_recordsIn, hisReady]
    cases u.receivers[r].data with
    | none => simp
    | some d => simp [and_comm]
  refine ⟨fun r => ?_, fun hpool => ?_, fun hlate hpool => ?_⟩
  · rw [poolList, mem_gather, hmem]
  · exact nodup_gather (nodup_recordsIn g v) hpool fun r hr hwr => hready r ((hmem r).mp ⟨hr, hwr⟩)
  · refine inOrder_gather (late := DockedOfLate u) (fun x y hx hy => ?_) (fun x y hx hy => poolOrder_asymm hx hy)
      (fun x y z hx hy hz => poolOrder_trans hx hy hz) hlate hpool
    rw [← hstanding.poolOrder_eq]
    exact poolBefore_iff_of_late (hstanding.dockedOfLate hvclock hx) (hstanding.dockedOfLate hvclock hy)

/-- INVENTORY_END of a rack, in a hub without outfit orders. -/
theorem inventoryDone_eq (hinv : s.racks[g].inventory = true) (hu : u = reconciled g s) (ho : u.outfits = [])
    (hw : w = chargeAll g (broughtUp g s)) (hweq : w = { u with racks := w.racks }) (hon : w.racks[g].online = true) :
    inventoryDone g s = { issueGrants g w with pool := poolList u (issueGrants g w) g } := by
  have hg := granted_issueGrants g w
  have hrecharged : recharged g s = issueGrants g w := by rw [recharged, hw]
  have hpool : (issueGrants g w).pool = u.pool := by rw [hg.pool, hweq]
  have horders : (issueGrants g w).outfits = [] := by rw [hg.eq, hweq]; exact ho
  rw [inventoryDone_of_running hinv, hrecharged, forEach_enterIfReady horders fun r hr => ?_]
  · rw [hpool]
    rfl
  · obtain ⟨d, hd, hp⟩ := mem_recordsIn.mp hr
    obtain ⟨x, hx, rfl⟩ := Option.map_eq_some_iff.mp hp
    exact ⟨x.1, x.2, by rw [placeOf_eq, hd]; exact hx, (hg.rackKept x.1).online.trans hon⟩

/-- While an inventory runs, its deadline sends the order again (R146). -/
theorem exec_inventoryDeadlineExpiry (hrun : s.phase = .running) (hinv : s.racks[g].inventory = true)
    (hdue : s.due s.racks[g].inventoryDeadline = true) : exec (.inventoryDeadlineExpiry g) s =
      .next ((handFrame g (.order .inventory) s).modRack g fun e =>
        { e with inventoryDeadline := some (s.clock + 5000) }) := by
  change execInventoryDeadlineExpiry g s = _
  rw [execInventoryDeadlineExpiry, running_of_running s hrun, inventoryExpiry, if_pos ⟨hinv, hdue⟩]
  rfl

/-- Settles O52: the receivers still unconfirmed are undocked (`reconcile_cases`), and what follows moves no receiver;
without outfit orders each step is said by what it adds: UNKEYs (`broughtUp_eq`), the charge queue (`chargeList_spec`)
and the pool (`poolList_spec`). -/
theorem inventoryRepeatsAndEnds : Obligations.InventoryRepeatsAndEnds := by
  unfold Obligations.InventoryRepeatsAndEnds
  intro s g k id level
  refine ⟨exec_inventoryDeadlineExpiry, fun hport hinv => ?_, reconcile_eq g, fun hport hinv ho => ?_,
    fun hport hinv => ?_⟩
  · have hserved := serviced_inventoryDone hinv
    have htidy := (tidied_reconciled g s).trans (tidied_broughtUp g s)
    have hkept := hserved.racks g
    refine ⟨_, exec_inventoryEnd hport k id level, htidy.frame.trans hserved.fleetFrame, ?_, ?_, ?_,
      fun j r d hin => ?_, fun j r d hin hc => ?_⟩
    · rw [hkept.online, broughtUp_racks, opened_eq]
    · rw [hkept.inventory, broughtUp_racks, opened_eq]
    · rw [hkept.inventoryDeadline, broughtUp_racks, opened_eq]
    · exact hserved.tidied.confirmedAt (hkept.2 j) (confirmedAt_broughtUp g j s) r d hin
    · obtain ⟨hocc, hd⟩ := hin
      rw [hkept.2 j, broughtUp_occupant]
      refine reconciled_of_confirmed hocc fun d' hd' => ?_
      rw [hd] at hd'
      cases hd'
      exact hc
  · intro u _ _ _ hq hdistinct _ _ hready
    have hu : u = reconciled g s := by
      rw [reconciled, fins_eq_finRange]
      rfl
    clear_value u
    have ho' : u.outfits = [] := hu ▸ (tidied_reconciled g s).no_orders ho
    have hw := chargeAll_broughtUp hu hq hdistinct
    obtain ⟨w, hwdef⟩ : ∃ w, w = chargeAll g (broughtUp g s) := ⟨_, rfl⟩
    rw [← hwdef] at hw
    have hrack : w.racks[g] = { u.racks[g] with
        inventory := false, inventoryDeadline := none, online := true
        keyQueue := u.racks[g].keyQueue ++ owedOrders u g, chargeQueue := chargeList u g } := by
      rw [hw]
      simp only [Fin.getElem_fin, Vector.getElem_set_self]
    have hqueue : w.racks[g].chargeQueue = chargeList u g := by rw [hrack]
    have hdone := inventoryDone_eq hinv hu ho' hwdef (by rw [hw]) (by rw [hrack])
    obtain ⟨hnodup, hmem, horder⟩ := chargeList_spec hdistinct
    obtain ⟨hpmem, hpnodup, hporder⟩ := poolList_spec (granted_issueGrants g w) (by rw [hw]) (by rw [hw])
      fun r hr => (hready r hr).2
    refine ⟨w, poolList u (issueGrants g w) g, by rw [exec_inventoryEnd hport, hdone], ?_, ?_, ?_, ?_, hpmem, hpnodup,
      hporder⟩
    · rw [hqueue]
      exact hw
    · rw [hqueue]
      exact hnodup
    · rw [hqueue]
      exact hmem
    · rw [hqueue]
      exact horder
  · rw [exec_inventoryEnd hport, inventoryDone_of_none hinv]

end Sys2Proof.Machine
end

section
/-! KEY_DEADLINE_EXPIRY below the retry limit (R142). -/

namespace Sys2Proof.Machine

open Laws

variable {s t : State} {g : PortNo} {o : KeyOrder}

/-- Where no rack can send an order, the sendings at the end of an event do nothing (R142). -/
theorem sendKeys_of_nothing (hn : ∀ h : PortNo, ¬ (s.racks[h].online = true ∧ s.racks[h].inFlight = false ∧
    s.racks[h].keyQueue ≠ [])) : sendKeys s = s :=
  forEach_of_fixed (fins 12) fun h => sendHead_of_nothing (hn h)

theorem onlySent_handFrame (g : PortNo) (f : TxFrame) (s : State) : OnlySent s (handFrame g f s) := by
  rw [OnlySent, handFrame_eq]

theorem OnlySent.modRack (h : OnlySent s t) (g : PortNo) (f : Rack → Rack) : OnlySent s (t.modRack g f) := by
  rw [OnlySent, h]
  rfl

theorem keyExpiry_of_resent (hf : Flying s g o) (hdue : s.due s.racks[g].keyDeadline = true)
    (hret : s.racks[g].attempts < s.limits.keyRetries) :
    keyExpiry g s = sendOrder g o (s.racks[g].attempts + 1) s := by
  unfold keyExpiry
  simp only [flying_of_flying hf]
  exact (if_pos hdue).trans (if_pos hret)

/-- An order sent while it is in flight: the rack counts the attempt and has a new deadline. -/
theorem sendOrder_of_flying (hf : s.racks[g].inFlight = true) (o : KeyOrder) (n : Nat) :
    sendOrder g o n s = (handFrame g (.order (keyFrame s o)) s).modRack g fun e =>
      { e with attempts := n, keyDeadline := some (s.clock + 2000) } := by
  have hrack : (handFrame g (.order (keyFrame s o)) s).racks[g].inFlight = true := by rw [handFrame_racks, hf]
  unfold sendOrder State.modRack
  rw [← hrack]
  rfl

theorem exec_keyDeadlineExpiry_resent (hrun : s.phase = .running) (hf : Flying s g o)
    (hdue : s.due s.racks[g].keyDeadline = true) (hret : s.racks[g].attempts < s.limits.keyRetries) :
    exec (.keyDeadlineExpiry g) s = .next (sendKeys (sendOrder g o (s.racks[g].attempts + 1) s)) := by
  change execKeyDeadlineExpiry g s = _
  rw [execKeyDeadlineExpiry, running_of_running s hrun, keyExpiry_of_resent hf hdue hret]

/-- Settles O45: the order stays in flight while it is sent again, so the sending at the event's end serves the other
racks alone. -/
theorem keyDeadlineResends : Obligations.KeyDeadlineResends := by
  unfold Obligations.KeyDeadlineResends
  intro s g o hrun hf hdue hret f u
  have hframe : keyFrame s o = f := by cases o <;> rfl
  have hu : sendOrder g o (s.racks[g].attempts + 1) s = u := by rw [sendOrder_of_flying hf.1, hframe]
  have hself : u.racks[g] = { s.racks[g] with
      attempts := s.racks[g].attempts + 1, keyDeadline := some (s.clock + 2000) } := by
    rw [modRack_racks_self, handFrame_racks]
  have hother (h : PortNo) (hne : h ≠ g) : u.racks[h] = s.racks[h] := by
    rw [modRack_racks_ne _ hne.symm, handFrame_racks]
  have hbusy : u.racks[g].inFlight = true := by rw [hself]; exact hf.1
  obtain ⟨-, hports, hnotices⟩ := grown_sendKeys u
  refine ⟨sendKeys u, ?_, rfl, fun hn => sendKeys_of_nothing fun h ⟨hon, hfl, hq⟩ => ?_, ?_, ?_, ?_, ?_⟩
  · rw [exec_keyDeadlineExpiry_resent hrun hf hdue hret, hu]
  · by_cases hne : h = g
    · subst hne
      exact Bool.false_ne_true (hfl.symm.trans hbusy)
    · rw [hother h hne] at hon hfl hq
      exact Bool.false_ne_true (hfl.symm.trans (hn h hne hon hq))
  · rw [sendKeys_racks, Rack.sent, if_neg fun h => Bool.false_ne_true (h.2.1.symm.trans hbusy), hself]
  · exact (portsKept_handFrame g _ s).trans hports
  · exact List.IsPrefix.trans (noticesGrow_handFrame g _ s) hnotices
  · have hsent : OnlySent s u := (onlySent_handFrame g _ s).modRack g _
    rw [onlySent_sendKeys u, hsent]

end Sys2Proof.Machine
end

section
/-! A GALLERY port that is lost: the sets it was in, and the places that are offered (R88, R111). -/

namespace Sys2Proof.Machine

open Laws

variable {s t u : State} {g h q : PortNo} {p : ProgNo} {n m : TourNo}

/-! ### The ports that a demand arrival leaves alone (R97 to R101, R108) -/

theorem startSettle_ports (g : PortNo) (c : CarrierNo) (p : ProgNo) (s : State) :
    (startSettle g c p s).ports = s.ports := by
  unfold startSettle
  split
  · exact queueNotice_ports ..
  · rfl

theorem putWaiting_ports (g : PortNo) (p : ProgNo) (s : State) : (putWaiting g p s).ports = s.ports :=
  queueNotice_ports ..

/-- An allocation hands on no frame: the map follows at the end of the event (R108). -/
theorem allocate_ports (g : PortNo) (p : ProgNo) (s : State) : (allocate g p s).ports = s.ports := by
  unfold allocate
  split
  · exact queueNotice_ports ..
  · split
    · exact startSettle_ports ..
    · split
      · exact startSettle_ports ..
      · unfold preemptOrWait
        split
        · exact putWaiting_ports ..
        · split
          · exact (putWaiting_ports ..).trans (startSettle_ports ..)
          · exact putWaiting_ports ..

/-- A map goes to its own port. -/
theorem sendMap_ports_ne (hne : g ≠ h) (s : State) : (sendMap g s).ports[h] = s.ports[h] :=
  handFrame_ports_ne hne _ s

theorem demandArrival_ports_ne (hne : g ≠ h) (p : ProgNo) (s : State) :
    (demandArrival p g s).ports[h] = s.ports[h] := by
  refine ite_keeps (P := fun t => t.ports[h] = s.ports[h]) rfl ?_
  refine ite_keeps (P := fun t => t.ports[h] = s.ports[h]) ?_ ((sendMap_ports_ne hne _).trans ?_) <;>
    rw [allocate_ports]

/-! ### What follows at a port that is lost -/

/-- Sets, programs, carriers and what they bring about changed, but of the ports nothing at `q`, and no port's role. -/
structure PortAside (q : PortNo) (s t : State) : Prop where
  eq : t = { s with tours := t.tours, programs := t.programs, sources := t.sources, galleries := t.galleries
                    ports := t.ports, notices := t.notices, noticeOverflow := t.noticeOverflow, log := t.log }
  port : t.ports[q] = s.ports[q]
  roles : PortsKept s t

theorem PortAside.refl (q : PortNo) (s : State) : PortAside q s s := ⟨rfl, rfl, fun _ => ⟨rfl, rfl, rfl⟩⟩

theorem PortAside.trans (h : PortAside q s t) (h' : PortAside q t u) : PortAside q s u where
  eq := by rw [h'.eq, h.eq]
  port := h'.port.trans h.port
  roles := h.roles.trans h'.roles

theorem PortAside.hearing (h : PortAside q s t) : t.hearing = s.hearing := by rw [h.eq]

/-- What changes no port. -/
theorem portAside_of_same_ports (hports : t.ports = s.ports) (heq : t = { s with
    tours := t.tours, programs := t.programs, sources := t.sources, galleries := t.galleries, ports := t.ports
    notices := t.notices, noticeOverflow := t.noticeOverflow, log := t.log }) : PortAside q s t :=
  ⟨heq, by rw [hports], fun _ => by rw [hports]; exact ⟨rfl, rfl, rfl⟩⟩

theorem portAside_guideMoved (n : TourNo) (g : PortNo) (code : MoveCode) (s : State) :
    PortAside q s (guideMoved n g code s) :=
  portAside_of_same_ports (queueNotice_ports ..) (by rw [guideMoved, queueNotice_eq])

theorem portAside_chooseTourOverlays (n : TourNo) (s : State) : PortAside q s (chooseTourOverlays n s) := by
  obtain ⟨heq, -⟩ := onlyOverlays_chooseTourOverlays n s
  exact portAside_of_same_ports (by rw [heq]) (by rw [heq])

theorem portAside_withSet (n : TourNo) (set : List PortNo) (s : State) : PortAside q s (withSet n set s) :=
  portAside_of_same_ports rfl rfl

theorem portAside_demandArrival (hne : g ≠ q) (p : ProgNo) (s : State) : PortAside q s (demandArrival p g s) where
  eq := by rw [(demandKeeps_onlyDemands s).demandArrival p g s rfl]
  port := demandArrival_ports_ne hne p s
  roles := ((demandKeeps_grown s).demandArrival p g s (Grown.refl s)).2.1

/-- A gallery that joins hands maps to its own port. -/
theorem portAside_joinGallery (hne : g ≠ q) (n : TourNo) (s : State) : PortAside q s (joinGallery n g s) := by
  rw [joinGallery_eq_demands]
  exact (((portAside_withSet n _ s).trans (forEach_keeps (P := PortAside q (withSet n _ s)) _
    (fun p t ht => ht.trans (portAside_demandArrival hne p t)) _ (PortAside.refl q _))).trans
    (portAside_chooseTourOverlays n _)).trans (portAside_guideMoved n g _ _)

theorem portAside_offerPlace (hs : ∀ r ∈ s.hearing, r.port ≠ q) (n : TourNo) : PortAside q s (offerPlace n s) :=
  offerPlace_keeps (P := PortAside q s) (fun t r hr _ _ _ ht =>
    ht.trans (portAside_joinGallery (hs r (ht.hearing ▸ hr)) n t)) s (PortAside.refl q s)

/-! ### The port leaves every set (R88) -/

theorem leaveGallery_portLost_eq (n : TourNo) (g : PortNo) (s : State) : leaveGallery n g .portLost s =
    guideMoved n g .portLost (chooseTourOverlays n
      (withSet n (s.tours[n].gallerySet.filter fun x => !(x == g)) s)) := rfl

theorem portAside_leaveGallery_portLost (n : TourNo) (g : PortNo) (s : State) :
    PortAside q s (leaveGallery n g .portLost s) :=
  ((portAside_withSet n _ s).trans (portAside_chooseTourOverlays n _)).trans (portAside_guideMoved n g _ _)

theorem leaveGallery_portLost_tours (n : TourNo) (g : PortNo) (s : State) (m : TourNo) :
    (leaveGallery n g .portLost s).tours[m].gallerySet =
      if n = m then s.tours[m].gallerySet.filter fun x => !(x == g) else s.tours[m].gallerySet := by
  have htours : (leaveGallery n g .portLost s).tours =
      (withSet n (s.tours[n].gallerySet.filter fun x => !(x == g)) s).tours := by
    rw [leaveGallery_portLost_eq, guideMoved, queueNotice_tours, (onlyOverlays_chooseTourOverlays n _).1]
  rw [htours]
  split
  · next h => subst h; rw [withSet, modTour_tours_self]
  · next h => rw [withSet, modTour_tours_ne s h]

/-- The port is in no set of the tours that have lost it, and joins none again. -/
theorem not_mem_leaveGallery_portLost (h : n = m ∨ g ∉ s.tours[m].gallerySet) :
    g ∉ (leaveGallery n g .portLost s).tours[m].gallerySet := by
  rw [leaveGallery_portLost_tours]
  split
  · simp
  · next hne => exact h.resolve_left hne

theorem not_mem_joinGallery (hne : g ≠ q) (hm : q ∉ s.tours[m].gallerySet) :
    q ∉ (joinGallery n g s).tours[m].gallerySet := by
  by_cases h : m = n
  · subst h
    rw [joinGallery_tours_self]
    exact fun hq => (List.mem_append.mp hq).elim hm fun hq => hne (List.mem_singleton.mp hq).symm
  · rwa [joinGallery_tours_ne h]

theorem not_mem_offerPlace_of_records (hs : ∀ r ∈ s.hearing, r.port ≠ q) (hm : q ∉ s.tours[m].gallerySet) (n : TourNo) :
    q ∉ (offerPlace n s).tours[m].gallerySet :=
  (offerPlace_keeps (P := fun t => t.hearing = s.hearing ∧ q ∉ t.tours[m].gallerySet) (fun t r hr _ _ _ ht =>
    ⟨(joinGallery_hearing n r.port t).trans ht.1, not_mem_joinGallery (hs r (ht.1 ▸ hr)) ht.2⟩) s ⟨rfl, hm⟩).2

/-! ### The port lost (R88, R111) -/

/-- The hub without the records of a port. -/
def withoutRecords (g : PortNo) (s : State) : State :=
  { s with hearing := s.hearing.filter fun r => !(r.port == g) }

theorem port_ne_of_mem_withoutRecords {r : HearingRecord} (hr : r ∈ (withoutRecords g s).hearing) : r.port ≠ g := by
  have hr' : r ∈ s.hearing.filter fun r => !(r.port == g) := hr
  simpa using (List.mem_filter.mp hr').2

/-- The tours that have the port in their set. -/
def losersOf (g : PortNo) (s : State) : List TourNo := (fins 24).filter fun t => s.tours[t].gallerySet.contains g

theorem hearingLost_eq (g : PortNo) (s : State) : hearingLost g s = forEach (losersOf g s) offerPlace
    (forEach (losersOf g s) (fun t => leaveGallery t g .portLost) (withoutRecords g s)) := rfl

/-- After the loss of a port no set has it, whatever places were offered (R88). -/
theorem hearingLost_spec (g : PortNo) (s : State) : PortAside g (withoutRecords g s) (hearingLost g s) ∧
    ∀ m : TourNo, g ∉ (hearingLost g s).tours[m].gallerySet := by
  rw [hearingLost_eq]
  have hleft : PortAside g (withoutRecords g s)
      (forEach (losersOf g s) (fun t => leaveGallery t g .portLost) (withoutRecords g s)) :=
    forEach_keeps (P := PortAside g (withoutRecords g s)) _
      (fun n t ht => ht.trans (portAside_leaveGallery_portLost n g t)) _ (PortAside.refl g _)
  have hnone (m : TourNo) :
      g ∉ (forEach (losersOf g s) (fun t => leaveGallery t g .portLost) (withoutRecords g s)).tours[m].gallerySet := by
    by_cases hm : g ∈ s.tours[m].gallerySet
    · have hloser : m ∈ losersOf g s := List.mem_filter.mpr ⟨mem_fins m, by simpa using hm⟩
      exact forEach_settles (f := fun n t => leaveGallery n g .portLost t)
        (Q := fun m t => g ∉ t.tours[m].gallerySet) hloser
        (fun _ => not_mem_leaveGallery_portLost (.inl rfl))
        (fun _ _ ht => not_mem_leaveGallery_portLost (.inr ht)) _
    · exact forEach_keeps (P := fun t => g ∉ t.tours[m].gallerySet) _
        (fun n t ht => not_mem_leaveGallery_portLost (.inr ht)) _ hm
  refine forEach_keeps (P := fun t => PortAside g (withoutRecords g s) t ∧ ∀ m : TourNo, g ∉ t.tours[m].gallerySet) _
    (fun n t ht => ?_) _ ⟨hleft, hnone⟩
  obtain ⟨haside, hout⟩ := ht
  have hrecords : ∀ r ∈ t.hearing, r.port ≠ g := fun r hr => port_ne_of_mem_withoutRecords (haside.hearing ▸ hr)
  exact ⟨haside.trans (portAside_offerPlace hrecords n), fun m => not_mem_offerPlace_of_records hrecords (hout m) n⟩

end Sys2Proof.Machine
end

section
/-! The grant limit of a rack written (R140): grants revoked down to it, or issued up to it. -/

namespace Sys2Proof.Machine

open Laws

variable {s t u : State} {g h : PortNo} {k : RackSlot} {r : RecNo} {d : ReceiverData} {v : Nat}

/-! ### Where charging reaches -/

/-- Receivers, one rack and its port, and what frames change besides differ; limit and generation of the rack stay. -/
structure ChargedAt (g : PortNo) (s t : State) : Prop where
  eq : t = { s with receivers := t.receivers, racks := t.racks, ports := t.ports, notices := t.notices
                    noticeOverflow := t.noticeOverflow, log := t.log }
  others : ∀ h, h ≠ g → t.racks[h] = s.racks[h] ∧ t.ports[h] = s.ports[h]
  limit : t.racks[g].grantLimit = s.racks[g].grantLimit
  generation : t.racks[g].generation = s.racks[g].generation

theorem ChargedAt.refl (g : PortNo) (s : State) : ChargedAt g s s := ⟨rfl, fun _ _ => ⟨rfl, rfl⟩, rfl, rfl⟩

theorem ChargedAt.trans (h : ChargedAt g s t) (h' : ChargedAt g t u) : ChargedAt g s u where
  eq := by rw [h'.eq, h.eq]
  others i hne := ⟨(h'.others i hne).1.trans (h.others i hne).1, (h'.others i hne).2.trans (h.others i hne).2⟩
  limit := h'.limit.trans h.limit
  generation := h'.generation.trans h.generation

theorem chargedAt_modRack (s : State) (g : PortNo) {f : Rack → Rack}
    (hf : ∀ e, (f e).grantLimit = e.grantLimit ∧ (f e).generation = e.generation) :
    ChargedAt g s (s.modRack g f) where
  eq := rfl
  others i hne := ⟨modRack_racks_ne s hne.symm f, rfl⟩
  limit := by rw [modRack_racks_self]; exact (hf _).1
  generation := by rw [modRack_racks_self]; exact (hf _).2

theorem chargedAt_noteReceiver (g : PortNo) (s : State) (r : RecNo) (f : ReceiverData → ReceiverData) :
    ChargedAt g s (s.noteReceiver r f) := ⟨rfl, fun _ _ => ⟨rfl, rfl⟩, rfl, rfl⟩

theorem chargedAt_chargeFrame (g : PortNo) (r : RecNo) (order : RackSlot → RackOrder) (s : State) :
    ChargedAt g s (chargeFrame g r order s) := by
  rcases chargeFrame_eq g r order s with hf | ⟨f, hf⟩ <;> rw [hf]
  · exact ChargedAt.refl g s
  · exact ⟨by rw [handFrame_eq], fun i hne => ⟨by rw [handFrame_racks], handFrame_ports_ne hne.symm f s⟩,
      by rw [handFrame_racks], by rw [handFrame_racks]⟩

theorem chargedAt_chargeSettle (g : PortNo) (r : RecNo) (s : State) : ChargedAt g s (chargeSettle g r s) := by
  rw [chargeSettle_eq_modRack]
  exact chargedAt_modRack s g fun _ => ⟨rfl, rfl⟩

theorem chargedAt_freeGrant (g : PortNo) (r : RecNo) (s : State) : ChargedAt g s (freeGrant g r s) :=
  (chargedAt_modRack s g (f := fun e => { e with grants := e.grants.filter fun x => !(x == r) })
    fun _ => ⟨rfl, rfl⟩).trans (chargedAt_noteReceiver g _ r _)

/-- The two things that an issue does: nothing, or the head of the charge queue gets a grant (R138). -/
theorem issueOne_cases (g : PortNo) (s : State) : issueOne g s = s ∨
    s.racks[g].grants.length < s.racks[g].grantLimit ∧
      ∃ r rest, issueOne g s = chargeFrame g r .grant (headGranted g r rest s) := by
  by_cases hn : s.racks[g].online = false ∨ s.racks[g].grantLimit ≤ s.racks[g].grants.length ∨
      s.racks[g].chargeQueue = []
  · exact .inl (issueOne_of_nothing hn)
  · obtain ⟨hon, hlim, hq⟩ : s.racks[g].online = true ∧ s.racks[g].grants.length < s.racks[g].grantLimit ∧
        s.racks[g].chargeQueue ≠ [] := by simpa using hn
    obtain ⟨r, rest, hq⟩ := List.exists_cons_of_ne_nil hq
    exact .inr ⟨hlim, r, rest, issueOne_of_cons hq hon hlim⟩

theorem headGranted_rack (g : PortNo) (r : RecNo) (rest : List RecNo) (s : State) :
    (headGranted g r rest s).racks[g] =
      { s.racks[g] with chargeQueue := rest, grants := s.racks[g].grants ++ [r] } := by
  rw [headGranted, State.noteReceiver_racks, modRack_racks_self]

theorem chargedAt_headGranted (g : PortNo) (r : RecNo) (rest : List RecNo) (s : State) :
    ChargedAt g s (headGranted g r rest s) :=
  (chargedAt_modRack s g (f := fun e => { e with chargeQueue := rest, grants := e.grants ++ [r] })
    fun _ => ⟨rfl, rfl⟩).trans (chargedAt_noteReceiver g _ r _)

theorem chargedAt_issueOne (g : PortNo) (s : State) : ChargedAt g s (issueOne g s) := by
  rcases issueOne_cases g s with h | ⟨-, r, rest, h⟩ <;> rw [h]
  · exact ChargedAt.refl g s
  · exact (chargedAt_headGranted g r rest s).trans (chargedAt_chargeFrame g r .grant _)

/-! ### The most recent grant revoked (R140) -/

/-- The hub once a receiver's grant is revoked. -/
def revoked (g : PortNo) (r : RecNo) (s : State) : State :=
  chargeSettle g r (freeGrant g r (chargeFrame g r .revoke s))

theorem chargedAt_revoked (g : PortNo) (r : RecNo) (s : State) : ChargedAt g s (revoked g r s) :=
  ((chargedAt_chargeFrame g r .revoke s).trans (chargedAt_freeGrant g r _)).trans (chargedAt_chargeSettle g r _)

theorem revokeOne_of_above (hlast : s.racks[g].grants.getLast? = some r)
    (hlim : s.racks[g].grantLimit < s.racks[g].grants.length) : revokeOne g s = revoked g r s := by
  unfold revokeOne
  simp only [hlast]
  exact if_pos hlim

/-- Within the limit nothing is revoked. -/
theorem revokeOne_of_within (hlim : s.racks[g].grants.length ≤ s.racks[g].grantLimit) : revokeOne g s = s := by
  unfold revokeOne
  dsimp only
  split
  · rfl
  · exact if_neg (Nat.not_lt.mpr hlim)

theorem chargedAt_revokeOne (g : PortNo) (s : State) : ChargedAt g s (revokeOne g s) := by
  unfold revokeOne
  dsimp only
  split
  · exact ChargedAt.refl g s
  · exact ite_keeps (P := ChargedAt g s) (chargedAt_revoked g _ s) (ChargedAt.refl g s)

theorem chargeFrame_racks (g : PortNo) (r : RecNo) (order : RackSlot → RackOrder) (s : State) :
    (chargeFrame g r order s).racks = s.racks := by
  rcases chargeFrame_eq g r order s with hf | ⟨f, hf⟩ <;> rw [hf]
  exact handFrame_racks ..

theorem revoked_grants (g : PortNo) (r : RecNo) (s : State) :
    (revoked g r s).racks[g].grants = s.racks[g].grants.filter fun x => x ≠ r := by
  rw [revoked, chargeSettle_racks, freeGrant, State.noteReceiver_racks, modRack_racks_self, chargeFrame_racks,
    ← filter_bne_eq]

theorem filter_ne_of_not_mem {l : List RecNo} (hr : r ∉ l) : (l.filter fun x => x ≠ r) = l :=
  List.filter_eq_self.mpr fun _ hx => decide_eq_true (ne_of_mem_of_not_mem hx hr)

theorem filter_ne_of_getLast {l : List RecNo} (hn : l.Nodup) (hlast : l.getLast? = some r) :
    (l.filter fun x => x ≠ r) = l.take (l.length - 1) := by
  obtain ⟨older, rfl⟩ := List.getLast?_eq_some_iff.mp hlast
  have hr : r ∉ older := fun hm => List.disjoint_of_nodup_append hn hm List.mem_cons_self
  rw [List.filter_append, filter_ne_of_not_mem hr]
  simp

/-- The oldest grants are left, one fewer where the limit asks for it. -/
theorem revokeOne_grants (hn : s.racks[g].grants.Nodup) : (revokeOne g s).racks[g].grants =
    s.racks[g].grants.take (max s.racks[g].grantLimit (s.racks[g].grants.length - 1)) := by
  by_cases hlim : s.racks[g].grantLimit < s.racks[g].grants.length
  · have hne : s.racks[g].grants ≠ [] := List.ne_nil_of_length_pos (by omega)
    have hlast := List.getLast?_eq_some_getLast hne
    rw [revokeOne_of_above hlast hlim, revoked_grants, filter_ne_of_getLast hn hlast,
      Nat.max_eq_right (by omega)]
  · rw [revokeOne_of_within (by omega), List.take_of_length_le (by omega)]

theorem forEach_revokeOne_grants (n : Nat) (s : State) (hn : s.racks[g].grants.Nodup) :
    (forEach (List.range n) (fun _ => revokeOne g) s).racks[g].grants =
      s.racks[g].grants.take (max s.racks[g].grantLimit (s.racks[g].grants.length - n)) := by
  induction n generalizing s with
  | zero => exact (List.take_of_length_le (Nat.le_max_right _ _)).symm
  | succ n ih =>
    have hgrants := revokeOne_grants hn
    rw [forEach_range_succ, ih _ (hgrants ▸ hn.sublist (List.take_sublist _ _)), hgrants,
      (chargedAt_revokeOne g s).limit, List.take_take, List.length_take]
    congr 1
    omega

/-! ### The limit takes effect (R140) -/

/-- The hub before grants are issued under the limit. -/
def withdrawnTo (g : PortNo) (s : State) : State :=
  forEach (List.range s.racks[g].grants.length) (fun _ => revokeOne g) s

theorem chargedAt_withdrawnTo (g : PortNo) (s : State) : ChargedAt g s (withdrawnTo g s) :=
  forEach_keeps (P := ChargedAt g s) _ (fun _ t ht => ht.trans (chargedAt_revokeOne g t)) s (ChargedAt.refl g s)

theorem chargedAt_applyGrantLimit (g : PortNo) (s : State) : ChargedAt g s (applyGrantLimit g s) :=
  forEach_keeps (P := ChargedAt g s) _ (fun _ t ht => ht.trans (chargedAt_issueOne g t)) _ (chargedAt_withdrawnTo g s)

/-- Grants above the limit are revoked, the most recent first. -/
theorem withdrawnTo_grants (hn : s.racks[g].grants.Nodup) :
    (withdrawnTo g s).racks[g].grants = s.racks[g].grants.take s.racks[g].grantLimit := by
  rw [withdrawnTo, forEach_revokeOne_grants _ s hn, Nat.sub_self, Nat.max_zero]

/-- At the limit nothing is granted. -/
theorem issueGrants_of_full (hfull : s.racks[g].grantLimit ≤ s.racks[g].grants.length) : issueGrants g s = s :=
  forEach_of_fixed _ fun _ => issueOne_of_nothing (.inr (.inl hfull))

theorem issueOne_within (h : s.racks[g].grants.length ≤ s.racks[g].grantLimit) :
    (issueOne g s).racks[g].grants.length ≤ (issueOne g s).racks[g].grantLimit := by
  rcases issueOne_cases g s with hs | ⟨hlim, r, rest, hs⟩ <;> rw [hs]
  · exact h
  · rw [chargeFrame_racks, headGranted_rack, List.length_append]
    exact hlim

/-- Grants issued stay within the limit. -/
theorem issueGrants_within (h : s.racks[g].grants.length ≤ s.racks[g].grantLimit) :
    (issueGrants g s).racks[g].grants.length ≤ (issueGrants g s).racks[g].grantLimit :=
  forEach_keeps (P := fun t => t.racks[g].grants.length ≤ t.racks[g].grantLimit) _ (fun _ _ => issueOne_within) s h

theorem applyGrantLimit_eq (g : PortNo) (s : State) : applyGrantLimit g s = issueGrants g (withdrawnTo g s) := rfl

/-- No fewer grants than the limit: the oldest of them are left. -/
theorem applyGrantLimit_grants_of_above (hn : s.racks[g].grants.Nodup)
    (hlim : s.racks[g].grantLimit ≤ s.racks[g].grants.length) :
    (applyGrantLimit g s).racks[g].grants = s.racks[g].grants.take s.racks[g].grantLimit := by
  have hgrants := withdrawnTo_grants hn
  rw [applyGrantLimit_eq, issueGrants_of_full, hgrants]
  rw [hgrants, (chargedAt_withdrawnTo g s).limit, List.length_take, Nat.min_eq_left hlim]

/-- No more grants than the limit: none is revoked, and more are issued up to the limit at most. -/
theorem applyGrantLimit_grants_of_within (hlim : s.racks[g].grants.length ≤ s.racks[g].grantLimit) :
    s.racks[g].grants <+: (applyGrantLimit g s).racks[g].grants ∧
      (applyGrantLimit g s).racks[g].grants.length ≤ s.racks[g].grantLimit := by
  have hkept : withdrawnTo g s = s := forEach_of_fixed _ fun _ => revokeOne_of_within hlim
  rw [applyGrantLimit_eq, hkept]
  obtain ⟨n, hn⟩ := (granted_issueGrants g s).rack
  refine ⟨by rw [hn]; exact List.prefix_append _ _, (issueGrants_within hlim).trans (le_of_eq ?_)⟩
  rw [hn]

/-- One grant above the limit: it is revoked, and nothing else happens. -/
theorem applyGrantLimit_of_one_above {older : List RecNo} (hg : s.racks[g].grants = older ++ [r]) (hr : r ∉ older)
    (hlim : older.length = s.racks[g].grantLimit) : applyGrantLimit g s = revoked g r s := by
  have hlen : s.racks[g].grants.length = older.length + 1 := by rw [hg, List.length_append]; rfl
  have hfirst : revokeOne g s = revoked g r s := revokeOne_of_above (by rw [hg]; simp) (by omega)
  have hleft : (revoked g r s).racks[g].grants = older := by
    rw [revoked_grants, hg, List.filter_append, filter_ne_of_not_mem hr]
    simp
  have hat : (revoked g r s).racks[g].grants.length = (revoked g r s).racks[g].grantLimit := by
    rw [hleft, (chargedAt_revoked g r s).limit, hlim]
  have hrest : withdrawnTo g s = revoked g r s := by
    rw [withdrawnTo, hlen, forEach_range_succ, hfirst]
    exact forEach_of_fixed _ fun _ => revokeOne_of_within hat.le
  rw [applyGrantLimit_eq, hrest, issueGrants_of_full hat.ge]

theorem revoked_ports (hd : s.receivers[r].data = some d) (hp : d.place = some (h, k)) :
    (revoked g r s).ports = (handFrame g (.order (.revoke k)) s).ports := by
  have hplace : placeOf s r = some (h, k) := by rw [placeOf_eq, hd]; exact hp
  rw [revoked, chargeSettle_eq_modRack, State.modRack_ports, freeGrant, State.noteReceiver_ports,
    State.modRack_ports, chargeFrame, hplace]

theorem revoked_receiver (hd : s.receivers[r].data = some d) :
    (revoked g r s).receivers[r].data = some { d with charging := false } := by
  have hkept : (chargeFrame g r .revoke s).receivers = s.receivers := by
    rcases chargeFrame_eq g r .revoke s with hf | ⟨f, hf⟩ <;> rw [hf]
    exact handFrame_receivers ..
  rw [revoked, chargeSettle_receivers, freeGrant, State.noteReceiver, modReceiver_self]
  show ((chargeFrame g r .revoke s).receivers[r].data.map _) = _
  rw [hkept, hd]
  rfl

end Sys2Proof.Machine
end

section
/-! The role of a port changed (R157, R166, R170), and the notice port that follows (R156). -/

namespace Sys2Proof.Machine

open Laws

variable {s t : State} {p q g : PortNo} {r : PortRole}

/-! ### The notice port (R156) -/

def State.withNoticePort (s : State) (p : PortNo) : State := { s with limits := { s.limits with noticePort := p } }

/-- Where notices go once the roles are as they stand: the port they went to if it is a DESK, else the lowest DESK. -/
def noticePlace (s : State) : PortNo :=
  if s.ports[s.limits.noticePort].role = .desk then s.limits.noticePort
  else (firstDesk s).getD s.limits.noticePort

theorem placeNoticePort_eq (s : State) : placeNoticePort s = s.withNoticePort (noticePlace s) := by
  unfold placeNoticePort noticePlace
  split
  · rfl
  · cases firstDesk s <;> rfl

theorem noticePlace_of_desk (h : s.ports[s.limits.noticePort].role = .desk) :
    noticePlace s = s.limits.noticePort := if_pos h

theorem find?_fins_spec {n : Nat} {f : Fin n → Bool} {i : Fin n} (h : (fins n).find? f = some i) :
    f i = true ∧ ∀ j < i, f j = false := by
  rw [fins_eq_finRange, List.find?_eq_some_iff_getElem] at h
  obtain ⟨hi, k, hk, he, hlt⟩ := h
  obtain rfl : i = ⟨k, by simpa using hk⟩ := by simpa using he.symm
  refine ⟨hi, fun j hj => ?_⟩
  simpa using hlt j.val hj

/-- The lowest DESK port takes over (R156). -/
theorem noticePlace_of_other (h : s.ports[s.limits.noticePort].role ≠ .desk)
    (hdesk : ∃ x : PortNo, s.ports[x].role = .desk) :
    s.ports[noticePlace s].role = .desk ∧ ∀ x : PortNo, x < noticePlace s → s.ports[x].role ≠ .desk := by
  obtain ⟨x, hx⟩ := hdesk
  have hsome : (firstDesk s).isSome = true :=
    List.find?_isSome.mpr ⟨x, mem_fins x, beq_iff_eq.mpr hx⟩
  obtain ⟨p, hp⟩ := Option.isSome_iff_exists.mp hsome
  obtain ⟨hself, hlower⟩ := find?_fins_spec hp
  obtain rfl : p = noticePlace s := by rw [noticePlace, if_neg h, hp]; rfl
  exact ⟨beq_iff_eq.mp hself, fun y hy => beq_eq_false_iff_ne.mp (hlower y hy)⟩

/-- The place is decided by the roles and the place before. -/
theorem noticePlace_congr (hlimits : t.limits = s.limits)
    (hroles : ∀ x : PortNo, t.ports[x].role = s.ports[x].role) : noticePlace t = noticePlace s := by
  have hfirst : firstDesk t = firstDesk s := by simp only [firstDesk, hroles]
  simp only [noticePlace, hfirst, hroles, hlimits]

/-! ### A role left (R168) -/

theorem leaveRole_keeps (p : PortNo) (role : PortRole) (s : State) :
    (leaveRole p role s).limits = s.limits ∧ PortsKept s (leaveRole p role s) := by
  cases role with
  | unused | desk => exact ⟨rfl, fun _ => ⟨rfl, rfl, rfl⟩⟩
  | gallery =>
    obtain ⟨haside, -⟩ := hearingLost_spec p s
    refine ⟨?_, haside.roles⟩
    show (hearingLost p s).limits = _
    rw [haside.eq]
    rfl
  | rack =>
    have hoffline := (wentOffline_rackOffline p s).outcome.1
    show (rackOffline p s).limits = _ ∧ PortsKept s (rackOffline p s)
    rw [hoffline]
    exact ⟨rfl, fun _ => ⟨rfl, rfl, rfl⟩⟩

/-- The notice port is placed after the loss as it would be before. -/
theorem placeNoticePort_leaveRole (p : PortNo) (role : PortRole) (s : State) :
    placeNoticePort (leaveRole p role s) = (leaveRole p role s).withNoticePort (noticePlace s) := by
  obtain ⟨hlimits, hports⟩ := leaveRole_keeps p role s
  rw [placeNoticePort_eq, noticePlace_congr hlimits fun x => (hports x).1]

theorem queueNotice_withNoticePort (k : NoticeKind) (a b : Option (BitVec 16)) (d : BitVec 16) (s : State)
    (p : PortNo) : (queueNotice k a b d s).withNoticePort p = queueNotice k a b d (s.withNoticePort p) := by
  have henabled : (s.withNoticePort p).limits.enabled k = s.limits.enabled k := rfl
  unfold queueNotice
  rw [henabled]
  by_cases hk : (!s.limits.enabled k) = true
  · rw [if_pos hk, if_pos hk]
  · rw [if_neg hk, if_neg hk]
    by_cases hfull : Config.noticeDepth ≤ s.notices.length
    · rw [if_pos hfull, if_pos (c := Config.noticeDepth ≤ (s.withNoticePort p).notices.length) hfull]
      rfl
    · rw [if_neg hfull, if_neg (c := Config.noticeDepth ≤ (s.withNoticePort p).notices.length) hfull]
      rfl

/-- The notice port is of no account for a rack that goes offline. -/
theorem WentOffline.withNoticePort (h : WentOffline s t g) (p : PortNo) :
    WentOffline (s.withNoticePort p) (t.withNoticePort p) g := by
  obtain ⟨x, ht, hx, hrack, hslots, hreceivers, hkeying, hselected⟩ := h
  refine ⟨x.withNoticePort p, ?_, ?_, hrack, hslots, hreceivers, hkeying, ?_⟩
  · rw [ht, queueNotice_withNoticePort]
    rfl
  · rw [hx]
    rfl
  · exact selectedFrom_iff.mpr (selectedFrom_iff.mp hselected)

/-! ### The role changed (R170) -/

/-- The hub with another role of a port, before anything follows. -/
def withRole (q : PortNo) (r : PortRole) (s : State) : State := s.modPort q fun e => { e with role := r }

/-- The hub with the role of a port written: role and generation (R166). -/
def roleWritten (q : PortNo) (r : PortRole) (s : State) : State :=
  s.modPort q fun e => { e with role := r, generation := e.generation + 1 }

theorem withRole_advancePort (q : PortNo) (r : PortRole) (s : State) :
    withRole q r (advancePort q s) = roleWritten q r s := by
  simp [withRole, advancePort, roleWritten, State.modPort, Vector.set_set]

theorem changeRole_of_down (hne : r ≠ s.ports[q].role) (hdown : s.ports[q].link = .down) :
    changeRole q r s = (withRole q r s).withNoticePort (noticePlace (withRole q r s)) := by
  rw [changeRole, if_neg hne, hdown]
  exact placeNoticePort_eq _

theorem changeRole_of_up (hne : r ≠ s.ports[q].role) (hup : s.ports[q].link = .up) : changeRole q r s =
    takeRole q r ((leaveRole q s.ports[q].role (withRole q r s)).withNoticePort (noticePlace (withRole q r s))) := by
  rw [changeRole, if_neg hne, hup, ← placeNoticePort_leaveRole]
  rfl

end Sys2Proof.Machine
end

section
/-! WRITE_ENTRY on PORT and RACK (R140, R157, R166, R170). -/

namespace Sys2Proof.Machine

open Laws

variable {s t : State} {a q g h : PortNo} {rest : List Request} {tag : BitVec 16} {v : Nat} {r : PortRole}
  {f : TxFrame}

/-! ### RACK (R140) -/

/-- The hub with the grant limit of a rack written, before it takes effect. -/
def limitWritten (g : PortNo) (v : Nat) (s : State) : State :=
  s.modRack g fun e => { e with grantLimit := max 1 (min 40 v), generation := e.generation + 1 }

theorem limitWritten_rack (g : PortNo) (v : Nat) (s : State) : (limitWritten g v s).racks[g] =
    { s.racks[g] with grantLimit := max 1 (min 40 v), generation := s.racks[g].generation + 1 } :=
  modRack_racks_self s g _

theorem writeRack_eq (g : PortNo) (v : Nat) (s : State) :
    writeRack g [(4, v)] s = applyGrantLimit g (limitWritten g v s) := rfl

/-- A write of the grant limit is always taken. -/
theorem writeTaken_rack (hv : v < 4294967296) (hs : Serving s a (requestPayload tag 2 (writeOne 9 g.val 4 v)) rest) :
    WriteTaken s (applyGrantLimit g (limitWritten g v { s with requests := rest })) a tag .rack g.val := by
  have hg := g.isLt
  refine writeTaken_of_serveWrite hs ?_
  rw [serveWrite_of_parsed (table := .rack) (parseWrite_writeOne (table := 9) (by decide) (by omega) (by omega) hv)
    rfl hg, takeWrite_of_not_port (by decide)]
  have happly : applyWrite .rack g.val [(4, v)] { s with requests := rest } =
      applyGrantLimit g (limitWritten g v { s with requests := rest }) := by
    simp only [applyWrite, toFin_val, Option.elim_some, writeRack_eq]
  simp only [happly]
  rfl

/-- The ports after a frame are decided by the ports before it. -/
theorem handFrame_ports_congr (h : s.ports = t.ports) : (handFrame g f s).ports = (handFrame g f t).ports := by
  have hline {x y : State} (hxy : x.ports = y.ports) : (startLine g x).ports = (startLine g y).ports := by
    unfold startLine
    rw [hxy]
    split
    · rw [State.modPort_ports, State.modPort_ports, hxy]
    · exact hxy
  unfold handFrame
  rw [h]
  split
  · refine hline ?_
    rw [State.modPort_ports, State.modPort_ports, h]
  · rw [recordDrop_ports, recordDrop_ports, h]

/-- What a written grant limit brings about (R140). -/
theorem grantLimit_spec (s : State) (g : PortNo) (v : Nat) :
    let u := applyGrantLimit g (limitWritten g v s)
    u.racks[g].grantLimit = max 1 (min 40 v) ∧
      u.racks[g].generation = s.racks[g].generation + 1 ∧
      (∀ h : PortNo, h ≠ g → u.racks[h] = s.racks[h] ∧ u.ports[h] = s.ports[h]) ∧
      u.programs = s.programs ∧ u.pool = s.pool ∧ u.limits = s.limits ∧
      (s.racks[g].grants.Nodup →
        (max 1 (min 40 v) ≤ s.racks[g].grants.length →
          u.racks[g].grants = s.racks[g].grants.take (max 1 (min 40 v))) ∧
        (s.racks[g].grants.length ≤ max 1 (min 40 v) → s.racks[g].grants <+: u.racks[g].grants ∧
          u.racks[g].grants.length ≤ max 1 (min 40 v))) := by
  intro u
  have hat : ChargedAt g _ u := chargedAt_applyGrantLimit g (limitWritten g v s)
  have hlimit : (limitWritten g v s).racks[g].grantLimit = max 1 (min 40 v) := by
    rw [limitWritten_rack]
  have hgrants : (limitWritten g v s).racks[g].grants = s.racks[g].grants := by
    rw [limitWritten_rack]
  refine ⟨hat.limit.trans hlimit, hat.generation.trans (by rw [limitWritten_rack]), fun h hne => ?_,
    by rw [hat.eq]; rfl, by rw [hat.eq]; rfl, by rw [hat.eq]; rfl, fun hn => ⟨fun habove => ?_, fun hwithin => ?_⟩⟩
  · obtain ⟨hrack, hport⟩ := hat.others h hne
    exact ⟨hrack.trans (modRack_racks_ne _ hne.symm _), hport⟩
  · have := applyGrantLimit_grants_of_above (s := limitWritten g v s) (g := g)
    rw [hgrants, hlimit] at this
    exact this hn habove
  · have := applyGrantLimit_grants_of_within (s := limitWritten g v s) (g := g)
    rw [hgrants, hlimit] at this
    exact this hwithin

/-- One grant too many: one REVOKE is handed to the rack's port, and the receiver charges no more (R140). -/
theorem grantLimit_revokes_one {older : List RecNo} {r : RecNo} {d : ReceiverData} {k : RackSlot}
    (hgrants : s.racks[g].grants = older ++ [r]) (hr : r ∉ older)
    (hlen : older.length = max 1 (min 40 v)) (hd : s.receivers[r].data = some d) (hp : d.place = some (h, k)) :
    let u := applyGrantLimit g (limitWritten g v s)
    u.ports[g] = (handFrame g (.order (.revoke k)) s).ports[g] ∧
      u.receivers[r].data = some { d with charging := false } := by
  have hrevoked : applyGrantLimit g (limitWritten g v s) =
      revoked g r (limitWritten g v s) :=
    applyGrantLimit_of_one_above (by rw [limitWritten_rack]; exact hgrants) hr (by rw [limitWritten_rack]; exact hlen)
  have hd' : (limitWritten g v s).receivers[r].data = some d := hd
  have hports := (revoked_ports (g := g) hd' hp).trans (handFrame_ports_congr (t := s) rfl)
  intro u
  refine ⟨?_, ?_⟩
  · show (applyGrantLimit g (limitWritten g v s)).ports[g] = _
    rw [hrevoked, hports]
  · show (applyGrantLimit g (limitWritten g v s)).receivers[r].data = _
    rw [hrevoked, revoked_receiver hd']

/-! ### PORT: a write refused or taken (R151, R157) -/

theorem portRoleOf_code (r : PortRole) : portRoleOf r.code = some r := by cases r <;> rfl

theorem portRoleOf_eq_none (h : 3 < v) : portRoleOf v = none := by
  obtain ⟨n, rfl⟩ := Nat.exists_eq_add_of_le' h
  rfl

theorem portRoleAfter_code (e : Port) (r : PortRole) : portRoleAfter e [(1, r.code)] = r := by
  simp [portRoleAfter, valueFor_one, portRoleOf_code]

/-- A write of a role is refused REFUSED_STATE when it leaves no DESK port (R157). -/
theorem portRefused_iff : portRefused s q [(1, r.code)] = true ↔
    r ≠ .desk ∧ ∀ x : PortNo, x ≠ q → s.ports[x].role ≠ .desk := by
  rw [portRefused, portRoleAfter_code]
  simp [mem_fins]

/-- A write of a role, as it is served: the two tests in turn, and then its effect. -/
theorem serveWrite_port (hv : v < 4294967296) : serveWrite a (requestPayload tag 2 (writeOne 6 q.val 1 v)) s =
    if portRange [(1, v)] then refuse .range s
    else if portRefused s q [(1, v)] then refuse .refusedState s
    else takeWrite a .port ⟨6, q.val, [(1, v)]⟩ s := by
  have hq := q.isLt
  have hrefused : writeRefused s .port q.val [(1, v)] = portRefused s q [(1, v)] := by
    simp only [writeRefused, toFin_val]
    rfl
  rw [serveWrite_of_parsed (table := .port) (parseWrite_writeOne (table := 6) (by decide) (by omega) (by omega) hv)
    rfl hq, hrefused]
  rfl

theorem writeRefused_port_range (h : 3 < v) (hv : v < 4294967296)
    (hs : Serving s a (requestPayload tag 2 (writeOne 6 q.val 1 v)) rest) : WriteRefused s a rest tag .range := by
  refine writeRefused_of_serveWrite hs ?_
  have hrange : portRange [(1, v)] = true := by simp [portRange, valueFor_one, portRoleOf_eq_none h]
  rw [serveWrite_port hv, if_pos hrange]

theorem portRange_code (r : PortRole) : portRange [(1, r.code)] = false := by
  simp [portRange, valueFor_one, portRoleOf_code]

section
variable (hs : Serving s a (requestPayload tag 2 (writeOne 6 q.val 1 r.code)) rest)
include hs

theorem writeRefused_port_state (hr : r ≠ .desk) (hno : ∀ x : PortNo, x ≠ q → s.ports[x].role ≠ .desk) :
    WriteRefused s a rest tag .refusedState := by
  refine writeRefused_of_serveWrite hs ?_
  have hrefused : portRefused { s with requests := rest } q [(1, r.code)] = true := portRefused_iff.mpr ⟨hr, hno⟩
  rw [serveWrite_port (by cases r <;> decide), portRange_code, if_pos hrefused]
  rfl

variable (hdesk : r = .desk ∨ ∃ x : PortNo, x ≠ q ∧ s.ports[x].role = .desk)
include hdesk

/-- A write of a role that leaves a DESK port is served by its effect. -/
theorem serveWrite_port_taken : serveWrite a (requestPayload tag 2 (writeOne 6 q.val 1 r.code))
    { s with requests := rest } = takeWrite a .port ⟨6, q.val, [(1, r.code)]⟩ { s with requests := rest } := by
  have hrefused : portRefused { s with requests := rest } q [(1, r.code)] = false := by
    rw [Bool.eq_false_iff, Ne, portRefused_iff]
    rintro ⟨hr, hno⟩
    obtain ⟨x, hx, hrole⟩ := hdesk.resolve_left hr
    exact hno x hx hrole
  rw [serveWrite_port (by cases r <;> decide), portRange_code, hrefused]
  rfl

/-- The role of another port than the desk's own changes before the response (R153). -/
theorem writeTaken_port (hne : q ≠ a) :
    WriteTaken s (sendKeys (changeRole q r (advancePort q { s with requests := rest }))) a tag .port q.val := by
  refine writeTaken_of_serveWrite hs ?_
  have hown : ownRoleChange a .port ⟨6, q.val, [(1, r.code)]⟩ { s with requests := rest } = none :=
    if_neg fun h => hne (Fin.ext h.2.1)
  have happly : applyWrite .port q.val [(1, r.code)] { s with requests := rest } =
      sendKeys (changeRole q r (advancePort q { s with requests := rest })) := by
    simp only [applyWrite, toFin_val, Option.elim_some, writePort, portRoleAfter_code]
  rw [serveWrite_port_taken hs hdesk]
  simp only [takeWrite, hown, happly]

/-- The role of the desk's own port changes after the response, which shows it changed (R157). -/
theorem exec_writeEntry_own_port (hq : q = a) (hr : r ≠ .desk) (hrole : s.ports[q].role = .desk) :
    exec .writeEntry s = .next (sendKeys (changeRole a r (respond a
      (.response tag 2 .ok (entryResult (roleWritten a r { s with requests := rest }) .port a.val))
      (advancePort a { s with requests := rest })))) := by
  subst hq
  refine (serveHead_of_serving hs rfl).trans ?_
  have hown : ownRoleChange q .port ⟨6, q.val, [(1, r.code)]⟩ { s with requests := rest } = some r := by
    unfold ownRoleChange
    dsimp only
    rw [portRoleAfter_code]
    exact if_pos ⟨rfl, rfl, hrole, hr⟩
  rw [serveWrite_port_taken hs hdesk, ← withRole_advancePort]
  simp only [takeWrite, hown]
  rfl

end

end Sys2Proof.Machine
end

section
/-! WRITE_ENTRY on PORT: what an UP port leaves behind in each role (R157, R168 to R170). -/

namespace Sys2Proof.Machine

open Laws

variable {s t y : State} {a q g h : PortNo} {rest : List Request} {tag : BitVec 16} {v : Nat} {r : PortRole}

/-! ### The write carried out -/

/-- The hub with role, generation and notice port written, before blocks are told. -/
def portWritten (q : PortNo) (r : PortRole) (s : State) : State :=
  (roleWritten q r s).withNoticePort (noticePlace (roleWritten q r s))

/-- The same once the blocks of the role before are told. -/
def roleLeft (q : PortNo) (old r : PortRole) (s : State) : State :=
  (leaveRole q old (roleWritten q r s)).withNoticePort (noticePlace (roleWritten q r s))

theorem modPort_ports_self (s : State) (q : PortNo) (f : Port → Port) : (s.modPort q f).ports[q] = f s.ports[q] := by
  simp

theorem modPort_ports_ne (s : State) (hne : q ≠ g) (f : Port → Port) : (s.modPort q f).ports[g] = s.ports[g] := by
  have hv : q.val ≠ g.val := fun e => hne (Fin.ext e)
  simp [Vector.getElem_set_ne, hv]

theorem changeRole_written_of_down (hne : r ≠ s.ports[q].role) (hdown : s.ports[q].link = .down) :
    changeRole q r (advancePort q s) = portWritten q r s := by
  rw [changeRole_of_down (by rw [advancePort, modPort_ports_self]; exact hne)
    (by rw [advancePort, modPort_ports_self]; exact hdown), withRole_advancePort]
  rfl

theorem changeRole_written_of_up (hne : r ≠ s.ports[q].role) (hup : s.ports[q].link = .up) :
    changeRole q r (advancePort q s) = takeRole q r (roleLeft q s.ports[q].role r s) := by
  have hrole : (advancePort q s).ports[q].role = s.ports[q].role := by rw [advancePort, modPort_ports_self]
  rw [changeRole_of_up (hrole ▸ hne) (by rw [advancePort, modPort_ports_self]; exact hup), withRole_advancePort, hrole]
  rfl

/-- The notice port stays where it has a DESK, else it moves to the lowest DESK (R156). -/
theorem portWritten_noticePort (hdesk : r = .desk ∨ ∃ x : PortNo, x ≠ q ∧ s.ports[x].role = .desk) :
    let w := portWritten q r s
    (w.ports[s.limits.noticePort].role = .desk → w.limits.noticePort = s.limits.noticePort) ∧
      (w.ports[s.limits.noticePort].role ≠ .desk → w.ports[w.limits.noticePort].role = .desk ∧
        ∀ x : PortNo, x < w.limits.noticePort → w.ports[x].role ≠ .desk) := by
  have hsome : ∃ x : PortNo, (roleWritten q r s).ports[x].role = .desk := by
    rcases hdesk with hr | ⟨x, hx, hrole⟩
    · exact ⟨q, by rw [roleWritten, modPort_ports_self]; exact hr⟩
    · exact ⟨x, by rw [roleWritten, modPort_ports_ne s hx.symm]; exact hrole⟩
  exact ⟨fun h => noticePlace_of_desk (s := roleWritten q r s) h,
    fun h => noticePlace_of_other (s := roleWritten q r s) h hsome⟩

/-! ### The role before -/

theorem roleLeft_unused (q : PortNo) (r : PortRole) (s : State) : roleLeft q .unused r s = portWritten q r s := rfl

/-- A rack goes offline as at a link-down (R145). -/
theorem wentOffline_roleLeft (q : PortNo) (r : PortRole) (s : State) :
    WentOffline (portWritten q r s) (roleLeft q .rack r s) q :=
  (wentOffline_rackOffline q (roleWritten q r s)).withNoticePort _

theorem filter_port_ne {α : Type} (port : α → PortNo) (q : PortNo) (l : List α) :
    (l.filter fun x => !(port x == q)) = l.filter fun x => port x ≠ q :=
  List.filter_congr fun x _ => by simp [beq_eq_decide]

theorem purgeRequests_eq (q : PortNo) (s : State) :
    purgeRequests q s = { s with requests := s.requests.filter fun x => x.port ≠ q } := by
  rw [purgeRequests, filter_port_ne]

/-- The waiting requests of a DESK leave the queue (R150). -/
theorem roleLeft_desk (q : PortNo) (r : PortRole) (s : State) : roleLeft q .desk r s =
    { portWritten q r s with requests := s.requests.filter fun x => x.port ≠ q } := by
  show (purgeRequests q (roleWritten q r s)).withNoticePort _ = _
  rw [purgeRequests_eq]
  rfl

/-- A gallery loses its records, its places in the sets and its carriers; its transmit queue stays (R88, R111, R170). -/
theorem roleLeft_gallery (q : PortNo) (r : PortRole) (s : State) :
    let u := roleLeft q .gallery r s
    u.ports[q] = (portWritten q r s).ports[q] ∧ u.hearing = (s.hearing.filter fun x => x.port ≠ q) ∧
      (∀ n : TourNo, q ∉ u.tours[n].gallerySet) ∧ u.galleries[q] = Gallery.initial ∧
      u.limits = (portWritten q r s).limits ∧ u.receivers = s.receivers ∧ u.racks = s.racks := by
  obtain ⟨haside, hsets⟩ := hearingLost_spec q (roleWritten q r s)
  intro u
  have hu : u = (carriersLost q (hearingLost q (roleWritten q r s))).withNoticePort (noticePlace (roleWritten q r s)) :=
    rfl
  refine ⟨haside.port, ?_, hsets, ?_, ?_, ?_, ?_⟩
  · rw [← filter_port_ne]
    exact haside.hearing
  · exact modGallery_galleries_self (hearingLost q (roleWritten q r s)) q fun _ => Gallery.initial
  all_goals rw [hu, haside.eq]; rfl

/-! ### The desk's own port (R157) -/

/-- An UP DESK that takes another role. -/
theorem changeRole_of_desk (hr : r ≠ .desk) (hrole : y.ports[a].role = .desk) (hup : y.ports[a].link = .up) :
    changeRole a r y = takeRole a r { y with
      ports := y.ports.set a { y.ports[a] with role := r }
      limits := { y.limits with noticePort := noticePlace (withRole a r y) }
      requests := y.requests.filter fun x => x.port ≠ a } := by
  rw [changeRole_of_up (hrole ▸ hr) hup, hrole]
  show takeRole a r ((purgeRequests a (withRole a r y)).withNoticePort _) = _
  rw [purgeRequests_eq]
  rfl

/-- The response leaves link, role and limits, and the requests that wait. -/
theorem changeRole_answered (hr : r ≠ .desk) (hrole : s.ports[a].role = .desk) (hup : s.ports[a].link = .up)
    (f : TxFrame) :
    let y := respond a f (advancePort a s)
    changeRole a r y = takeRole a r { y with
      ports := y.ports.set a { y.ports[a] with role := r }, limits := (portWritten a r s).limits
      requests := s.requests.filter fun x => x.port ≠ a } := by
  have hself : (advancePort a s).ports[a] = { s.ports[a] with generation := s.ports[a].generation + 1 } :=
    modPort_ports_self s a _
  have hhanded : respond a f (advancePort a s) = handFrame a f (advancePort a s) :=
    if_pos (by rw [hself]; exact hrole)
  have hkept := portsKept_handFrame a f (advancePort a s)
  have hlimits : (handFrame a f (advancePort a s)).limits = s.limits := handFrame_limits ..
  have hrequests : (handFrame a f (advancePort a s)).requests = s.requests := handFrame_requests ..
  intro y
  have hy : y = handFrame a f (advancePort a s) := hhanded
  rw [← hy] at hkept hlimits hrequests
  have hplace : noticePlace (withRole a r y) = noticePlace (roleWritten a r s) := by
    refine noticePlace_congr hlimits fun x => ?_
    by_cases hx : a = x
    · subst hx
      rw [withRole, roleWritten, modPort_ports_self, modPort_ports_self]
    · rw [withRole, roleWritten, modPort_ports_ne _ hx, modPort_ports_ne _ hx, (hkept x).1, advancePort,
        modPort_ports_ne _ hx]
  rw [changeRole_of_desk hr ((hkept a).1.trans (by rw [hself]; exact hrole))
    ((hkept a).2.1.trans (by rw [hself]; exact hup)), hplace, hlimits, hrequests]
  rfl

/-! ### WRITE_ENTRY on PORT and RACK -/

/-- Settles O57: for a role, what the port's blocks leave behind by the role before (`roleLeft`), and what they take up
by the new one; for a grant limit, `grantLimit_spec`. -/
theorem writeEntryChangesARoleOrAGrantLimit : Obligations.WriteEntryChangesARoleOrAGrantLimit := by
  unfold Obligations.WriteEntryChangesARoleOrAGrantLimit
  intro s a rest tag v hv
  refine ⟨fun q hs => ⟨fun h3 => writeRefused_port_range h3 hv hs, fun r hr hne => ?_⟩, fun g hs => ?_⟩
  · subst hr
    refine ⟨writeRefused_port_state hs, fun hdesk => ⟨portWritten q r { s with requests := rest }, rfl, ?_⟩⟩
    obtain ⟨hstays, hmoves⟩ := portWritten_noticePort (s := { s with requests := rest }) hdesk
    have htaken (hqa : q ≠ a) := writeTaken_port hs hdesk hqa
    have hup (hqa : q ≠ a) (hlink : s.ports[q].link = .up) : WriteTaken s (sendKeys (takeRole q r
        (roleLeft q s.ports[q].role r { s with requests := rest }))) a tag .port q.val :=
      changeRole_written_of_up (s := { s with requests := rest }) hne hlink ▸ htaken hqa
    refine ⟨hstays, hmoves, fun hqa hlink => ?_, fun hqa hlink hold => ?_, fun hqa hlink hold => ?_,
      fun hqa hlink hold => ?_, fun hqa hlink hold => ?_, fun hqa hold hlink => ?_⟩
    · exact changeRole_written_of_down (s := { s with requests := rest }) hne hlink ▸ htaken hqa
    · have hup := hup hqa hlink
      rw [hold, roleLeft_unused] at hup
      exact ⟨by rintro rfl; exact hup, by rintro rfl; exact hup, by rintro rfl; exact hup⟩
    · have hup := hup hqa hlink
      rw [hold] at hup
      exact ⟨roleLeft q .gallery r { s with requests := rest }, by rintro (rfl | rfl) <;> exact hup,
        by rintro rfl; exact hup, roleLeft_gallery q r { s with requests := rest }⟩
    · have hup := hup hqa hlink
      rw [hold] at hup
      exact ⟨roleLeft q .rack r { s with requests := rest }, by rintro (rfl | rfl) <;> exact hup,
        by rintro rfl; exact hup, wentOffline_roleLeft q r { s with requests := rest }⟩
    · have hup := hup hqa hlink
      rw [hold, roleLeft_desk] at hup
      exact ⟨by rintro rfl; exact hup, by rintro rfl; exact hup, by rintro rfl; exact hup⟩
    · have hrd : r ≠ .desk := hold ▸ hne
      have hexec := exec_writeEntry_own_port hs hdesk hqa hrd hold
      subst hqa
      rw [changeRole_answered (s := { s with requests := rest }) hrd hold hlink] at hexec
      exact ⟨_, _, rfl, rfl, by rintro rfl; exact hexec, by rintro rfl; exact hexec, by rintro rfl; exact hexec⟩
  · obtain ⟨hlimit, hgeneration, hothers, hprograms, hpool, hlimits, hgrants⟩ :=
      grantLimit_spec { s with requests := rest } g v
    refine ⟨_, writeTaken_rack hv hs, hlimit, hgeneration, hothers, hprograms, hpool, hlimits, hgrants,
      fun older r d x k hg hr hlen hd hp => ?_⟩
    obtain ⟨hport, hreceiver⟩ :=
      grantLimit_revokes_one (s := { s with requests := rest }) hg hr hlen hd hp
    have hsame : (handFrame g (.order (.revoke k)) { s with requests := rest }).ports =
        (handFrame g (.order (.revoke k)) s).ports := handFrame_ports_congr rfl
    exact ⟨hport.trans (by rw [hsame]), hreceiver⟩

end Sys2Proof.Machine
end
